-- ==== Sys2Proof/Word.lean ====
section
/-! DEFINITION. The words of the block and their plainest arithmetic (00_scope.md R5, R7). -/

namespace Sys2Proof

/-- `DATA_W = 8` (R5): the shift register, an operand, STATUS, CONTROL. -/
abbrev Byte := BitVec 8

/-- `CNT_W = 4` (R5): the edge counter. -/
abbrev Count := BitVec 4

/-- The opcode field of a command (R60). -/
abbrev Opcode := BitVec 3

/-- `CMD_W = 11` (R5, R60): a command word. -/
abbrev CmdWord := BitVec 11

/-- `RSP_W = 9` (R5, R65): a response word. -/
abbrev RspWord := BitVec 9

/-- Line levels and one-bit latches: `true` is 1 (high), `false` is 0 (low) (R7; log 8). -/
abbrev Level := Bool

end Sys2Proof
end

