-- ==== Sys2Proof/Syntax.lean ====
section
/-! DEFINITION. The six commands of TWB-CMD version 1 (30_encoding.md R61), one constructor per row
of the opcode table. -/

namespace Sys2Proof

/-- A command. Bits 7:0 of the word are part of it for every command: WRITE sends them, the other
five latch them in ARG and nothing reads them (R62, R64; log 7). -/
inductive Instr where
  /-- `INIT`, the source's `initialize()` (R110). -/
  | init (ignored : Byte)
  /-- `START`, the source's `start()` (R111); written `RESTART` inside a transaction (R70). -/
  | start (ignored : Byte)
  /-- `STOP`, the source's `stop()` (R112). -/
  | stop (ignored : Byte)
  /-- `WRITE`, the source's `writeByte(data)` (R120). -/
  | write (data : Byte)
  /-- `READ_ACK`, the source's `readByteWithAck()` (R121). -/
  | readAck (ignored : Byte)
  /-- `READ_NACK`, the source's `readByteWithNack()` (R122). -/
  | readNack (ignored : Byte)
  deriving DecidableEq, Repr

/-- The mnemonic of R61. -/
def Instr.mnemonic : Instr → String
  | .init _ => "INIT"
  | .start _ => "START"
  | .stop _ => "STOP"
  | .write _ => "WRITE"
  | .readAck _ => "READ_ACK"
  | .readNack _ => "READ_NACK"

/-- The opcode of R61. -/
def Instr.opcode : Instr → Opcode
  | .init _ => 0b000#3
  | .start _ => 0b001#3
  | .stop _ => 0b010#3
  | .write _ => 0b011#3
  | .readAck _ => 0b100#3
  | .readNack _ => 0b101#3

/-- Bits 7:0 of the command word (R60, R64). -/
def Instr.operand : Instr → Byte
  | .init d => d
  | .start d => d
  | .stop d => d
  | .write d => d
  | .readAck d => d
  | .readNack d => d

end Sys2Proof
end

