-- ==== Sys2Proof/WellFormed.lean ====
section
/-! DEFINITION. What the spec asks of a command word (30_encoding.md R61, R63) and of a script of
commands (70_reset_and_hazards.md R152, R153). The block checks none of the script rules (R133). -/

namespace Sys2Proof

/-- The opcodes R61 gives a command; 6 and 7 are reserved (R63 (a)). -/
def opcodeDefined (op : Opcode) : Bool := op.toNat < 6

/-- A command word a host may present: its opcode is defined, its operand bits are any (R64). -/
def CmdWord.wf (w : CmdWord) : Bool := opcodeDefined (w.extractLsb' 8 3)

/-- A command is well formed when its opcode is defined; no operand is rejected (R64, R133 (c)). -/
def Instr.wf (i : Instr) : Bool := opcodeDefined i.opcode

/-- The part of a script after the first INIT, `inside` a transaction or between two (R153):
`{ START { byte | RESTART } STOP }`. -/
def transactionsWf : (inside : Bool) → List Instr → Bool
  | inside, [] => !inside
  | _, .init _ :: _ => false
  | _, .start _ :: rest => transactionsWf true rest
  | inside, .stop _ :: rest => inside && transactionsWf false rest
  | inside, .write _ :: rest => inside && transactionsWf true rest
  | inside, .readAck _ :: rest => inside && transactionsWf true rest
  | inside, .readNack _ :: rest => inside && transactionsWf true rest

/-- A session of the grammar of R153: `INIT { transaction }`. -/
def sessionWf : List Instr → Bool
  | [] => false
  | .init _ :: rest => transactionsWf false rest
  | .start _ :: _ => false
  | .stop _ :: _ => false
  | .write _ :: _ => false
  | .readAck _ :: _ => false
  | .readNack _ :: _ => false

/-- A script no word of which is refused after reset: INIT comes first (R63 (b), R152). -/
def scriptAccepted : List Instr → Bool
  | [] => true
  | .init _ :: _ => true
  | .start _ :: _ => false
  | .stop _ :: _ => false
  | .write _ :: _ => false
  | .readAck _ :: _ => false
  | .readNack _ :: _ => false

end Sys2Proof
end

