-- ==== Sys2Proof/Decode.lean ====
section
/-! DEFINITION. The decoder of command words and the encoder after it (30_encoding.md R60, R61, R63,
R64, R65). -/

namespace Sys2Proof

/-- The `mask` column of R61, the same for every row. -/
def opcodeMask : CmdWord := 0x700#11

/-- A word selects a row when `cmd & mask == match` (R61). -/
def selectsRow (row w : CmdWord) : Bool := w &&& opcodeMask == row

/-- Operand assembly: `data = cmd[7:0]`, used as it stands (R64). -/
def operandField (w : CmdWord) : Byte := w.extractLsb' 0 8

/-- The opcode field `cmd[10:8]` (R60). -/
def opcodeField (w : CmdWord) : Opcode := w.extractLsb' 8 3

/-- The opcode map of R61 in its order; a reserved word has no row and decodes to nothing (R63 (a)). -/
def decode (w : CmdWord) : Option Instr :=
  let d := operandField w
  if selectsRow 0x000#11 w then some (.init d)
  else if selectsRow 0x100#11 w then some (.start d)
  else if selectsRow 0x200#11 w then some (.stop d)
  else if selectsRow 0x300#11 w then some (.write d)
  else if selectsRow 0x400#11 w then some (.readAck d)
  else if selectsRow 0x500#11 w then some (.readNack d)
  else none

/-- The word of the opcode table, its bits numbered as the table numbers them: an 11-bit word read as
one number (R60). A number that needs more than 11 bits is no command word (log 20). -/
def decodeTableWord (nbits w : Nat) : Option Instr :=
  let v := w % 2 ^ nbits
  if v < 2 ^ 11 then decode (BitVec.ofNat 11 v) else none

/-- The command word of an instruction: `match` of its row with its operand in bits 7:0 (R60, R61). -/
def encode : Instr → CmdWord
  | .init d => 0x000#11 ||| d.setWidth 11
  | .start d => 0x100#11 ||| d.setWidth 11
  | .stop d => 0x200#11 ||| d.setWidth 11
  | .write d => 0x300#11 ||| d.setWidth 11
  | .readAck d => 0x400#11 ||| d.setWidth 11
  | .readNack d => 0x500#11 ||| d.setWidth 11

/-- The response word `{RSP_ACK, RSP_DATA}` (R65). -/
def encodeResponse (ack : Level) (data : Byte) : RspWord := BitVec.ofBool ack ++ data

/-- `rsp[8]` and `rsp[7:0]` (R65). -/
def decodeResponse (r : RspWord) : Level × Byte := (r.getLsbD 8, r.extractLsb' 0 8)

end Sys2Proof
end

