-- ==== Sys2Proof/Config.lean ====
section
/-! DEFINITION. The parameters of the block (00_scope.md R5): the fixed ones as constants, the `OPEN`
ones as a record that a claim takes as an argument. -/

namespace Sys2Proof

namespace Config

/-- `PRESET_BYTE` (R5): 16 edges. -/
def presetByte : Count := 0#4

/-- `PRESET_BIT` (R5): 2 edges. -/
def presetBit : Count := 14#4

/-- The STATUS word of a byte transfer (R67). -/
def statusByteWord : Byte := 0xF0#8

/-- The STATUS word of a one-bit transfer (R67). -/
def statusBitWord : Byte := 0xFE#8

/-- The CONTROL word INIT stores (R68). -/
def controlWord : Byte := 0x2A#8

/-- The CONTROL word whose write is the clock-toggle strobe (R68). -/
def strobeWord : Byte := 0x2B#8

/-- The idle-high pattern of the shift register (R14). -/
def idleHigh : Byte := 0xFF#8

/-- The all-zero pattern that signals ACK (R14, R121). -/
def allZero : Byte := 0x00#8

end Config

/-- The two timing constants a DELAY names (R91). -/
inductive Delay where
  | tLow
  | tHigh
  deriving DecidableEq, Repr

/-- The `OPEN` parameters of R5, durations in nanoseconds and `F_CLK` in hertz (log 12).
The two inequalities are the constraints of R5 and R159. -/
structure Params where
  tLow : Nat
  tHigh : Nat
  fClk : Nat
  pinSda : Nat
  pinScl : Nat
  tLow_min : 4700 < tLow
  tHigh_min : 4000 < tHigh

/-- The minimum duration of a DELAY (R91, R159). -/
def Params.duration (p : Params) : Delay → Nat
  | .tLow => p.tLow
  | .tHigh => p.tHigh

/-- The least number of cycles of `F_CLK` that lasts a DELAY: `ceil(T × F_CLK)` (R159). -/
def Params.minCycles (p : Params) (d : Delay) : Nat :=
  (p.duration d * p.fClk + 999999999) / 1000000000

end Sys2Proof
end

