-- ==== Sys2Proof/Machine/State.lean ====
section
/-! DEFINITION. The state of the machine: the block's registers (10_state.md R10, one field each), the
environment's two line contributions (20_memory.md R44), and the plain data that says what the
agents outside the sequencer do next (00_scope.md R6). -/

namespace Sys2Proof.Machine

/-- The two bus lines (R9). -/
inductive Line where
  | sda
  | scl
  deriving DecidableEq, Repr

/-! ## The 45 labels of the micro-program counter (R26) -/

inductive InitLabel where
  | i0 | iFin
  deriving DecidableEq, Repr

inductive StartLabel where
  | s0 | s1 | s2 | s3 | s4 | s5 | s6 | sFin
  deriving DecidableEq, Repr

inductive StopLabel where
  | p0 | p1 | p2 | p3 | p4 | p5 | pFin
  deriving DecidableEq, Repr

inductive WriteLabel where
  | w0 | w1 | w2 | w3 | w4 | wFin
  deriving DecidableEq, Repr

inductive ReadAckLabel where
  | a0 | a1 | a2 | a3 | aFin
  deriving DecidableEq, Repr

inductive ReadNackLabel where
  | n0 | n1 | n2 | n3 | nFin
  deriving DecidableEq, Repr

inductive TransferLabel where
  | t0 | t1 | t2 | t3 | t4 | t5 | t6 | t7 | t8 | t9 | t10
  deriving DecidableEq, Repr

/-- A label of `UPC` (R26): `IDLE`, or a label of one of the six commands, or of TRANSFER. -/
inductive Label where
  | idle
  | init (l : InitLabel)
  | start (l : StartLabel)
  | stop (l : StopLabel)
  | write (l : WriteLabel)
  | readAck (l : ReadAckLabel)
  | readNack (l : ReadNackLabel)
  | transfer (l : TransferLabel)
  deriving DecidableEq, Repr

/-- The labels `TRET` ranges over (R26). -/
inductive RetLabel where
  | w3 | wFin | a2 | aFin | n2 | nFin | idle
  deriving DecidableEq, Repr

/-- `TRET` as a value of `UPC` (R26, R93). -/
def RetLabel.toLabel : RetLabel → Label
  | .w3 => .write .w3
  | .wFin => .write .wFin
  | .a2 => .readAck .a2
  | .aFin => .readAck .aFin
  | .n2 => .readNack .n2
  | .nFin => .readNack .nFin
  | .idle => .idle

/-- The complete state of the block (R10), in the order of that rule's table. -/
structure Block where
  /-- `DIR.SDA`, `DIR.SCL` (R11): `true` is output. -/
  dirSda : Level
  dirScl : Level
  /-- `OUT.SDA`, `OUT.SCL` (R12): `false` pulls the line low when its direction is output. -/
  outSda : Level
  outScl : Level
  /-- `SR` (R14). -/
  sr : Byte
  /-- `SDO` (R15). -/
  sdo : Level
  /-- `CNT` (R16). -/
  cnt : Count
  /-- `F_START` (R17). -/
  fStart : Bool
  /-- `F_OVF` (R18). -/
  fOvf : Bool
  /-- `F_STOP` (R19). -/
  fStop : Bool
  /-- `F_COLL` (R20): written 0 by INIT and reset, by nothing else, and read by nothing (log 6). -/
  fColl : Bool
  /-- `CONTROL` (R22), bit 0 never stored. -/
  control : Byte
  /-- `XFER` (R23). -/
  xfer : Bool
  /-- `BUSY` (R24). -/
  busy : Bool
  /-- `OP`, `ARG` (R25). -/
  op : Opcode
  arg : Byte
  /-- `UPC`, `TRET`, `TW` (R26). -/
  upc : Label
  tret : RetLabel
  tw : Byte
  /-- `CAP`, `RXB` (R27). -/
  cap : Byte
  rxb : Byte
  /-- `RSP_VALID`, `RSP_ACK`, `RSP_DATA` (R28). -/
  rspValid : Bool
  rspAck : Level
  rspData : Byte
  deriving DecidableEq, Repr

/-- The environment's contributions `e_sda` and `e_scl` (R44): `true` does not pull the line low. -/
structure Env where
  sda : Level
  scl : Level
  deriving DecidableEq, Repr

/-- One move of one agent (R6): an attempt at it, which does nothing where it is not enabled (log 2). -/
inductive Move where
  /-- The sequencer takes the micro-step at `UPC` if it is enabled (R80). -/
  | sequencer
  /-- The environment changes its contribution to one line to the other value (R45). -/
  | environment (l : Line)
  /-- The host presents the next word of its script (R62, R165). -/
  | host
  /-- The host reads the response, which has no side effect (R66, R165). -/
  | readResponse
  /-- The host waits (R165). -/
  | wait
  /-- The reset input is asserted (R150). -/
  | assertReset
  /-- The reset input is released (R150). -/
  | releaseReset
  deriving DecidableEq, Repr

/-- The machine: the block, the environment's contributions, the reset input, the words the host has
still to present (R166), and the moves to come (the model's own field, log 2). -/
structure State where
  blk : Block
  env : Env
  rst : Bool
  script : List CmdWord
  agenda : List Move
  deriving DecidableEq, Repr

/-- Why a run can go no further. -/
inductive Fault where
  /-- Raised by a step in which a command is in progress, its micro-step is not enabled, and no agent
  has a move left: the hang of R131 and R157. Safe: the hardware stays there too (R90, R163). -/
  | hang (at' : Label)
  deriving DecidableEq, Repr

/-- An input for which the spec gives the block no behaviour (R63). -/
inductive Refusal where
  /-- An instruction without a meaning in `exec`. Safe. -/
  | notModelled (mnemonic : String)
  /-- Raised by a step that accepts a word with opcode 6 or 7 (R63 (a)). Safe. -/
  | reservedCommand (word : CmdWord)
  /-- Raised by the acceptance of a command other than INIT while `CONTROL` is not `0x2A`
  (R63 (b)). Safe. -/
  | commandBeforeInit (op : Opcode)
  deriving DecidableEq, Repr

/-- The reset value of every piece of state (R31). -/
def Block.reset : Block where
  dirSda := false
  dirScl := false
  outSda := false
  outScl := false
  sr := 0x00#8
  sdo := true
  cnt := 0#4
  fStart := false
  fOvf := false
  fStop := false
  fColl := false
  control := 0x00#8
  xfer := false
  busy := false
  op := 0#3
  arg := 0x00#8
  upc := .idle
  tret := .idle
  tw := 0x00#8
  cap := 0x00#8
  rxb := 0x00#8
  rspValid := false
  rspAck := false
  rspData := 0x00#8

/-- The machine right after reset (R31, R150): reset released, no word to present, no move planned, and
both lines let go by the environment, a DESIGN CHOICE (log 4), since reset fixes neither (R44). -/
def State.reset : State where
  blk := Block.reset
  env := { sda := true, scl := true }
  rst := false
  script := []
  agenda := []

end Sys2Proof.Machine
end

