-- ==== Sys2Proof/Machine/Micro.lean ====
section
/-! DEFINITION. The vocabulary of the fixed micro-program (40_micro_operations.md R80): what one
micro-step does, its kind, and where it goes next. The programs themselves stand with their families. -/

namespace Sys2Proof.Machine

/-- What a FIN step answers (R65). -/
inductive Result where
  /-- `(0, 0x00)`: INIT, START, STOP. -/
  | nothing
  /-- `(1 if CAP[0] == 0 else 0, 0x00)`: WRITE. -/
  | acknowledge
  /-- `(0, RXB)`: READ_ACK, READ_NACK. -/
  | received
  deriving DecidableEq, Repr

/-- One micro-operation (R85 to R95, R110, R120 to R122). -/
inductive MicroOp where
  /-- Step I0 (R110). -/
  | configure
  /-- `SET_OUT(line, v)` (R85). -/
  | setOut (line : Line) (v : Level)
  /-- `SET_DIR(SDA, v)` (R86). -/
  | setDirSda (v : Level)
  /-- `LOAD_SR(v)` of a constant (R87). -/
  | loadSr (v : Byte)
  /-- `LOAD_SR(ARG)`, step W1 (R120). -/
  | loadArg
  /-- `RXB <- CAP; LOAD_SR(v)` at once, steps A2 and N2 (R121, R122). -/
  | saveAndLoad (v : Byte)
  /-- `WRITE_STATUS(TW); XFER <- 1` at once, step T0 (R95). -/
  | beginTransfer
  /-- `STROBE_TC` (R89). -/
  | strobe
  /-- `WAIT_SCL` (R90). -/
  | waitScl
  /-- `DELAY(T)` (R91). -/
  | delay (d : Delay)
  /-- `BRANCH`: to the label given if `F_OVF` is set, else to the step's successor (R94). -/
  | branchOvf (taken : Label)
  /-- `CAP <- SR; XFER <- 0` at once, step T8 (R95). -/
  | capture
  /-- `SET_DIR(SDA, 1); UPC <- TRET`, step T10 (R93, R95). -/
  | restoreAndReturn
  /-- `CALL(w, ret)` (R93). -/
  | call (w : Byte) (ret : RetLabel)
  /-- `FIN` (R92). -/
  | fin (r : Result)
  deriving DecidableEq, Repr

/-- The seven kinds of micro-step (R80). -/
inductive Kind where
  | act | wait | delay | branch | call | ret | fin
  deriving DecidableEq, Repr

/-- The kind of a micro-operation (R80, R85 to R94). -/
def MicroOp.kind : MicroOp → Kind
  | .configure => .act
  | .setOut _ _ => .act
  | .setDirSda _ => .act
  | .loadSr _ => .act
  | .loadArg => .act
  | .saveAndLoad _ => .act
  | .beginTransfer => .act
  | .strobe => .act
  | .capture => .act
  | .waitScl => .wait
  | .delay _ => .delay
  | .branchOvf _ => .branch
  | .restoreAndReturn => .ret
  | .call _ _ => .call
  | .fin _ => .fin

/-- A micro-step of the program: its operation and the label it goes to unless the operation itself
sets `UPC` (FIN, CALL, RETURN, a taken BRANCH). -/
structure MicroStep where
  op : MicroOp
  next : Label
  deriving DecidableEq, Repr

end Sys2Proof.Machine
end

