-- ==== Sys2Proof/Machine/Operands.lean ====
section
/-! DEFINITION. What the block reads: the levels of the two lines (20_memory.md R41 to R43), the
acknowledge bit (R120), the operand of the command in progress (R64), and what the host reads (R62,
R65). -/

namespace Sys2Proof.Machine

/-- `m_scl` (R41): 0 if the clock line is an output and its latch is 0, else 1. -/
def Block.mScl (b : Block) : Level := !(b.dirScl && !b.outScl)

/-- `m_sda` (R42): 0 if the data line is an output and `OUT.SDA` or `SDO` is 0, else 1. -/
def Block.mSda (b : Block) : Level := !(b.dirSda && (!b.outSda || !b.sdo))

/-- `scl_line = m_scl & e_scl`, which is also `IN.SCL` (R13, R43). -/
def Block.sclLine (e : Env) (b : Block) : Level := b.mScl && e.scl

/-- `sda_line = m_sda & e_sda`, which is also `IN.SDA` (R13, R43). -/
def Block.sdaLine (e : Env) (b : Block) : Level := b.mSda && e.sda

/-- The acknowledge bit a WRITE returns: 1 if `CAP[0]` is 0 (R120). -/
def Block.acknowledged (b : Block) : Bool := !b.cap.getLsbD 0

/-- The byte step W1 loads: `ARG` as it stands (R25, R64). -/
def Block.dataOperand (b : Block) : Byte := b.arg

/-- `(RSP_ACK, RSP_DATA)` as a FIN step writes them (R65). -/
def Block.resultOf (b : Block) : Result → Level × Byte
  | .nothing => (false, 0x00#8)
  | .acknowledge => (b.acknowledged, 0x00#8)
  | .received => (false, b.rxb)

/-- `cmd_ready = ~BUSY` (R62). -/
def Block.cmdReady (b : Block) : Bool := !b.busy

/-- What the host reads on the response port: `rsp` while `rsp_valid` is 1 (R65, R66). -/
def Block.response (b : Block) : Option (Level × Byte) :=
  if b.rspValid then some (b.rspAck, b.rspData) else none

/-- The levels of the clock line and the data line. -/
def State.sclLine (s : State) : Level := s.blk.sclLine s.env

def State.sdaLine (s : State) : Level := s.blk.sdaLine s.env

/-- The pair `(scl_line, sda_line)` that a run shows after each step (R166). -/
def State.lines (s : State) : Level × Level := (s.sclLine, s.sdaLine)

/-- A command can be accepted: `BUSY = 0`, and reset is not asserted (R62, R150). -/
def State.ready (s : State) : Bool := !s.rst && s.blk.cmdReady

end Sys2Proof.Machine
end

