-- ==== Sys2Proof/Machine/Flags.lean ====
section
/-! DEFINITION. STATUS, CONTROL and every flag computation (10_state.md R16 to R22,
40_micro_operations.md R82, R84, R88, R89). -/

namespace Sys2Proof.Machine

/-- `TWM`, two-wire mode on: `CONTROL[5:4] == 0b10` (R22). -/
def Block.twm (b : Block) : Bool := b.control.extractLsb' 4 2 == 0b10#2

/-- The view `STATUS = {F_START, F_OVF, F_STOP, F_COLL, CNT}` (R21). Bit 4 is unspecified at all times
(R20): it reads as `coll`, any value (log 6). -/
def Block.status (coll : Bool) (b : Block) : Byte :=
  BitVec.ofBool b.fStart ++ BitVec.ofBool b.fOvf ++ BitVec.ofBool b.fStop ++ BitVec.ofBool coll ++ b.cnt

/-- `WRITE_STATUS(w)` (R88): bits 7, 6, 5 clear the flags they name, bit 4 is ignored, bits 3:0 load the
counter. -/
def Block.writeStatus (w : Byte) (b : Block) : Block :=
  { b with
    fStart := b.fStart && !w.getLsbD 7
    fOvf := b.fOvf && !w.getLsbD 6
    fStop := b.fStop && !w.getLsbD 5
    cnt := w.extractLsb' 0 4 }

/-- The counter's part of a strobe: one edge more, modulo 16, the wrap from 15 to 0 setting `F_OVF`
(R16, R18, R82 (a), R89). -/
def Block.countEdge (b : Block) : Block :=
  { b with
    cnt := b.cnt + 1#4
    fOvf := b.fOvf || b.cnt == 15#4 }

/-- A start condition between two states: the data line falls while the clock line reads high before and
after (R17, R84). -/
def startCondition (scl0 scl1 sda0 sda1 : Level) : Bool := scl0 && scl1 && sda0 && !sda1

/-- A stop condition: the data line rises while the clock line reads high before and after (R19, R84). -/
def stopCondition (scl0 scl1 sda0 sda1 : Level) : Bool := scl0 && scl1 && !sda0 && sda1

/-- The flags the line update sets, never clears (R84). -/
def Block.noteConditions (scl0 scl1 sda0 sda1 : Level) (b : Block) : Block :=
  { b with
    fStart := b.fStart || startCondition scl0 scl1 sda0 sda1
    fStop := b.fStop || stopCondition scl0 scl1 sda0 sda1 }

/-- Every flag cleared, as INIT clears them (R110). -/
def Block.clearFlags (b : Block) : Block :=
  { b with fStart := false, fOvf := false, fStop := false, fColl := false }

end Sys2Proof.Machine
end

