-- ==== Sys2Proof/Machine/Ops.lean ====
section
/-! DEFINITION. The operations the micro-programs share: the line update and the primitives of
40_micro_operations.md, the acceptance of a command (R62), reset (R150), and the step of the
environment (R45). There is no exception to take and none to return from (R130, R136). -/

namespace Sys2Proof.Machine

/-! ## The line update (R84) -/

/-- `SR <- {SR[6:0], b}` (R82 (b)). -/
def shiftIn (v : Byte) (bit : Level) : Byte := v.extractLsb' 0 7 ++ BitVec.ofBool bit

/-- The shift: on a rising edge of the clock line while `XFER = 1`, the level sampled is that of the
data line before the edge (R83, R84). -/
def Block.shiftOnRise (scl0 scl1 sda0 : Level) (b : Block) : Block :=
  { b with sr := if !scl0 && scl1 && b.xfer then shiftIn b.sr sda0 else b.sr }

/-- The output latch: transparent while the clock line reads low, closed while it reads high (R15, R84). -/
def Block.latchOut (scl1 : Level) (b : Block) : Block :=
  { b with sdo := if scl1 then b.sdo else b.sr.getLsbD 7 }

/-- LineUpdate, from the levels before the step, in the order R84 writes it. -/
def Block.lineUpdate (e : Env) (scl0 sda0 : Level) (b : Block) : Block :=
  if b.twm then
    let scl1 := b.sclLine e
    let b2 := (b.shiftOnRise scl0 scl1 sda0).latchOut scl1
    b2.noteConditions scl0 scl1 sda0 (b2.sdaLine e)
  else b

/-- A sequencer step in its two phases: its own writes, then the line update (R81). -/
def Block.twoPhase (e : Env) (writes : Block → Block) (b : Block) : Block :=
  (writes b).lineUpdate e (b.sclLine e) (b.sdaLine e)

/-! ## The writes of the primitives (phase 1) -/

/-- `UPC <- l`. -/
def Block.goto (l : Label) (b : Block) : Block := { b with upc := l }

/-- `SET_OUT(line, v)` (R85). -/
def Block.setOut (line : Line) (v : Level) (b : Block) : Block :=
  match line with
  | .sda => { b with outSda := v }
  | .scl => { b with outScl := v }

/-- `SET_DIR(SDA, v)` (R86). -/
def Block.setDirSda (v : Level) (b : Block) : Block := { b with dirSda := v }

/-- `LOAD_SR(v)` (R87). -/
def Block.loadSr (v : Byte) (b : Block) : Block := { b with sr := v }

/-- `RXB <- CAP; LOAD_SR(v)` (R121, R122). -/
def Block.saveAndLoad (v : Byte) (b : Block) : Block := { b with rxb := b.cap, sr := v }

/-- `WRITE_STATUS(TW); XFER <- 1` (R95). -/
def Block.beginTransfer (b : Block) : Block := { b.writeStatus b.tw with xfer := true }

/-- `STROBE_TC` (R89), a write of the CONTROL word `0x2B` that leaves the stored word as it is (R68). -/
def Block.strobeTc (b : Block) : Block := { b.countEdge with outScl := !b.outScl }

/-- `CAP <- SR; XFER <- 0` (R95). -/
def Block.capture (b : Block) : Block := { b with cap := b.sr, xfer := false }

/-- `CALL(w, ret)` (R93). -/
def Block.call (w : Byte) (ret : RetLabel) (b : Block) : Block :=
  { b with tw := w, tret := ret, upc := .transfer .t0 }

/-- `FIN(a, d)` (R92), with the result of R65. -/
def Block.fin (r : Result) (b : Block) : Block :=
  { b with
    rspAck := (b.resultOf r).1
    rspData := (b.resultOf r).2
    rspValid := true
    busy := false
    upc := .idle }

/-- Step I0 of INIT (R110). -/
def Block.configure (b : Block) : Block :=
  { b.clearFlags with
    dirSda := true
    dirScl := true
    outSda := true
    outScl := true
    sr := Config.idleHigh
    sdo := true
    control := Config.controlWord
    cnt := 0#4
    xfer := false }

/-! ## One micro-step -/

/-- The effect of a micro-operation whose successor is `next`, or `none` while it is blocked. I0 and FIN
have no phase 2 (R81), every other step has (log 14). -/
def MicroOp.perform (e : Env) (next : Label) (b : Block) : MicroOp → Option Block
  | .configure => some (b.configure.goto next)
  | .setOut line v => some (b.twoPhase e fun b => (b.setOut line v).goto next)
  | .setDirSda v => some (b.twoPhase e fun b => (b.setDirSda v).goto next)
  | .loadSr v => some (b.twoPhase e fun b => (b.loadSr v).goto next)
  | .loadArg => some (b.twoPhase e fun b => (b.loadSr b.dataOperand).goto next)
  | .saveAndLoad v => some (b.twoPhase e fun b => (b.saveAndLoad v).goto next)
  | .beginTransfer => some (b.twoPhase e fun b => b.beginTransfer.goto next)
  | .strobe => some (b.twoPhase e fun b => b.strobeTc.goto next)
  | .waitScl => if b.sclLine e then some (b.twoPhase e fun b => b.goto next) else none
  | .delay _ => some (b.twoPhase e fun b => b.goto next)
  | .branchOvf taken => some (b.twoPhase e fun b => b.goto (if b.fOvf then taken else next))
  | .capture => some (b.twoPhase e fun b => b.capture.goto next)
  | .restoreAndReturn => some (b.twoPhase e fun b => (b.setDirSda true).goto b.tret.toLabel)
  | .call w ret => some (b.twoPhase e fun b => b.call w ret)
  | .fin r => some (b.fin r)

/-! ## The steps of the other agents -/

/-- Acceptance (R62): nothing else changes, and no line update follows (R81). -/
def Block.accept (op : Opcode) (arg : Byte) (first : Label) (b : Block) : Block :=
  { b with op := op, arg := arg, busy := true, rspValid := false, upc := first }

/-- The environment's contribution to one line changes to its other value (R45). -/
def Env.flip (l : Line) (e : Env) : Env :=
  match l with
  | .sda => { e with sda := !e.sda }
  | .scl => { e with scl := !e.scl }

/-- A step of the environment, followed by the line update (R45, R81). -/
def State.envStep (l : Line) (s : State) : State :=
  { s with
    env := s.env.flip l
    blk := s.blk.lineUpdate (s.env.flip l) s.sclLine s.sdaLine }

/-- Reset asserted (R150, R151): every piece of the block takes its reset value, at once and with no
line update, whatever was in progress. The environment's contributions stay (R29), and so do the words
still to present: the word of an abandoned command is not put back (log 25). -/
def State.assertReset (s : State) : State := { s with blk := Block.reset, rst := true }

/-- Reset released: steps resume (R150). -/
def State.releaseReset (s : State) : State := { s with rst := false }

end Sys2Proof.Machine
end

