-- ==== Sys2Proof/Machine/Transfer.lean ====
section
/-! DEFINITION. The subroutine TRANSFER (40_micro_operations.md R95). -/

namespace Sys2Proof.Machine

/-- TRANSFER, steps T0 to T10 (R95). T6 goes back to T1 until `F_OVF` is set (R94), T10 returns (R93). -/
def transferProgram : TransferLabel → MicroStep
  | .t0 => ⟨.beginTransfer, .transfer .t1⟩
  | .t1 => ⟨.delay .tLow, .transfer .t2⟩
  | .t2 => ⟨.strobe, .transfer .t3⟩
  | .t3 => ⟨.waitScl, .transfer .t4⟩
  | .t4 => ⟨.delay .tHigh, .transfer .t5⟩
  | .t5 => ⟨.strobe, .transfer .t6⟩
  | .t6 => ⟨.branchOvf (.transfer .t7), .transfer .t1⟩
  | .t7 => ⟨.delay .tLow, .transfer .t8⟩
  | .t8 => ⟨.capture, .transfer .t9⟩
  | .t9 => ⟨.loadSr Config.idleHigh, .transfer .t10⟩
  | .t10 => ⟨.restoreAndReturn, .idle⟩

end Sys2Proof.Machine
end

