-- ==== Sys2Proof/Machine/Programs.lean ====
section
/-! DEFINITION. The micro-programs of the six commands (41_framing_commands.md, 42_byte_commands.md),
each a table of its own, and the label each command starts at (30_encoding.md R62). -/

namespace Sys2Proof.Machine

/-- INIT (R110). -/
def initProgram : InitLabel → MicroStep
  | .i0 => ⟨.configure, .init .iFin⟩
  | .iFin => ⟨.fin .nothing, .idle⟩

/-- START (R111). The second hold is `T_LOW` (R111). -/
def startProgram : StartLabel → MicroStep
  | .s0 => ⟨.setOut .scl true, .start .s1⟩
  | .s1 => ⟨.waitScl, .start .s2⟩
  | .s2 => ⟨.delay .tHigh, .start .s3⟩
  | .s3 => ⟨.setOut .sda false, .start .s4⟩
  | .s4 => ⟨.delay .tLow, .start .s5⟩
  | .s5 => ⟨.setOut .scl false, .start .s6⟩
  | .s6 => ⟨.setOut .sda true, .start .sFin⟩
  | .sFin => ⟨.fin .nothing, .idle⟩

/-- STOP (R112). The second hold is `T_LOW` (R112). -/
def stopProgram : StopLabel → MicroStep
  | .p0 => ⟨.setOut .sda false, .stop .p1⟩
  | .p1 => ⟨.setOut .scl true, .stop .p2⟩
  | .p2 => ⟨.waitScl, .stop .p3⟩
  | .p3 => ⟨.delay .tHigh, .stop .p4⟩
  | .p4 => ⟨.setOut .sda true, .stop .p5⟩
  | .p5 => ⟨.delay .tLow, .stop .pFin⟩
  | .pFin => ⟨.fin .nothing, .idle⟩

/-- WRITE (R120). A CALL sets `UPC` itself, so the successor written beside it is not used. -/
def writeProgram : WriteLabel → MicroStep
  | .w0 => ⟨.setOut .scl false, .write .w1⟩
  | .w1 => ⟨.loadArg, .write .w2⟩
  | .w2 => ⟨.call Config.statusByteWord .w3, .transfer .t0⟩
  | .w3 => ⟨.setDirSda false, .write .w4⟩
  | .w4 => ⟨.call Config.statusBitWord .wFin, .transfer .t0⟩
  | .wFin => ⟨.fin .acknowledge, .idle⟩

/-- READ_ACK (R121). -/
def readAckProgram : ReadAckLabel → MicroStep
  | .a0 => ⟨.setDirSda false, .readAck .a1⟩
  | .a1 => ⟨.call Config.statusByteWord .a2, .transfer .t0⟩
  | .a2 => ⟨.saveAndLoad Config.allZero, .readAck .a3⟩
  | .a3 => ⟨.call Config.statusBitWord .aFin, .transfer .t0⟩
  | .aFin => ⟨.fin .received, .idle⟩

/-- READ_NACK (R122). -/
def readNackProgram : ReadNackLabel → MicroStep
  | .n0 => ⟨.setDirSda false, .readNack .n1⟩
  | .n1 => ⟨.call Config.statusByteWord .n2, .transfer .t0⟩
  | .n2 => ⟨.saveAndLoad Config.idleHigh, .readNack .n3⟩
  | .n3 => ⟨.call Config.statusBitWord .nFin, .transfer .t0⟩
  | .nFin => ⟨.fin .received, .idle⟩

/-- The fixed micro-program (R53): the micro-step of each label but `IDLE`. -/
def microcode : Label → Option MicroStep
  | .idle => none
  | .init l => some (initProgram l)
  | .start l => some (startProgram l)
  | .stop l => some (stopProgram l)
  | .write l => some (writeProgram l)
  | .readAck l => some (readAckProgram l)
  | .readNack l => some (readNackProgram l)
  | .transfer l => some (transferProgram l)

/-- The first label of each command, the dispatch at acceptance (R62). -/
def firstLabel : Instr → Label
  | .init _ => .init .i0
  | .start _ => .start .s0
  | .stop _ => .stop .p0
  | .write _ => .write .w0
  | .readAck _ => .readAck .a0
  | .readNack _ => .readNack .n0

/-- The number of sequencer micro-steps of a completed command (R167). -/
def microStepCount : Instr → Nat
  | .init _ => 2
  | .start _ => 8
  | .stop _ => 7
  | .write _ => 70
  | .readAck _ => 69
  | .readNack _ => 69

/-- The largest of those counts, the most micro-steps a command can still have to take (R167, log 17). -/
def maxMicroSteps : Nat := 70

end Sys2Proof.Machine
end

