-- ==== Sys2Proof/Machine/Sequencer.lean ====
section
/-! DEFINITION. The sequencer, the moves of all four agents, and a command run over them
(00_scope.md R6, 40_micro_operations.md R80, 70_reset_and_hazards.md R165 to R167). -/

namespace Sys2Proof.Machine

/-- One micro-step of the sequencer: enabled when `BUSY = 1`, `UPC` is its label and, for a WAIT, the
clock line reads high (R80, R90); `none` when it is not enabled. -/
def Block.seqStep (e : Env) (b : Block) : Option Block :=
  if b.busy then
    match microcode b.upc with
    | none => none
    | some m => m.op.perform e m.next b
  else none

/-- The sequencer's micro-step in the whole machine: none while reset is asserted (R150). -/
def State.seqStep (s : State) : Option State :=
  if s.rst then none else (s.blk.seqStep s.env).map fun b => { s with blk := b }

/-- A move. While reset is asserted no move but its release is enabled (R150); a move that is not
enabled changes nothing (log 2). The host's presenting of a word to a busy block has no effect (R62),
its reading and its waiting change nothing (R66, R165). -/
def State.move (m : Move) (s : State) : State :=
  match m with
  | .sequencer => s.seqStep.getD s
  | .environment l => if s.rst then s else s.envStep l
  | .host => s
  | .readResponse => s
  | .wait => s
  | .assertReset => s.assertReset
  | .releaseReset => s.releaseReset

/-- The move is enabled, that is, it is a step (R6): a micro-step of the sequencer that is enabled (R80, R90);
a change of a line while reset is not asserted (R45, R150); a read of a valid response (R165); reset in any
state but the one it holds already (R150), and its release while it is asserted, which the model counts as a
step of its own (log 26). The host's presenting of a word that is not accepted is no step (R62, R165; an
acceptance is `State.fetch`'s), and neither is its waiting (log 26). -/
def State.enabled (m : Move) (s : State) : Bool :=
  match m with
  | .sequencer => s.seqStep.isSome
  | .environment _ => !s.rst
  | .host => false
  | .readResponse => !s.rst && s.blk.rspValid
  | .wait => false
  | .assertReset => !(s.rst && s.blk == Block.reset)
  | .releaseReset => s.rst

/-- The label of the micro-step a move performs, if it performs one. -/
def State.performs (m : Move) (s : State) : Option Label :=
  match m with
  | .sequencer => if s.seqStep.isSome then some s.blk.upc else none
  | .environment _ => none
  | .host => none
  | .readResponse => none
  | .wait => none
  | .assertReset => none
  | .releaseReset => none

/-- The sequencer alone, up to `n` micro-steps, until it is blocked or the command is finished. -/
def State.runQuiet : Nat → State → State
  | 0, s => s
  | n + 1, s =>
    match s.seqStep with
    | none => s
    | some t => State.runQuiet n t

/-- The command in progress over the moves still planned: until the command is over (by FIN or by
reset), or no move is left, when the sequencer goes on alone (R167 (a), log 2). -/
def State.runAgenda : List Move → State → State
  | [], s => s.runQuiet maxMicroSteps
  | m :: ms, s => if s.blk.busy then State.runAgenda ms ({ s with agenda := ms }.move m) else s

/-- The command in progress over the machine's own agenda. -/
def State.run (s : State) : State := State.runAgenda s.agenda s

/-! ## The trail of a command: what a run shows (R166) -/

/-- One atomic step of a command's run: the label, if it was the sequencer's, and the state after it. -/
structure Event where
  label : Option Label
  after : State
  deriving DecidableEq, Repr

/-- The events of `runQuiet`. -/
def State.trailQuiet : Nat → State → List Event
  | 0, _ => []
  | n + 1, s =>
    match s.seqStep with
    | none => []
    | some t => ⟨some s.blk.upc, t⟩ :: State.trailQuiet n t

/-- The event of a move, if the move is a step: a move that is not enabled leaves none. `a` is the agenda
after it. -/
def State.eventOf (m : Move) (a : List Move) (s : State) : List Event :=
  if s.enabled m then [⟨s.performs m, { s with agenda := a }.move m⟩] else []

/-- The events of `runAgenda`. -/
def State.trailAgenda : List Move → State → List Event
  | [], s => s.trailQuiet maxMicroSteps
  | m :: ms, s =>
    if s.blk.busy then
      s.eventOf m ms ++ State.trailAgenda ms ({ s with agenda := ms }.move m)
    else []

/-- The events of `run`. -/
def State.trail (s : State) : List Event := State.trailAgenda s.agenda s

/-! ## Acceptance -/

/-- The machine right after the acceptance of a command (R62). -/
def State.accepted (i : Instr) (s : State) : State :=
  { s with blk := s.blk.accept i.opcode i.operand (firstLabel i) }

/-- A command issued where it may be: accepted and run if the machine is ready, without effect
otherwise (R62). -/
def State.issue (i : Instr) (s : State) : Host.Outcome State Fault Refusal :=
  if s.ready then .next (s.accepted i).run else .next s

/-- A command other than INIT: refused where it would be accepted while `CONTROL` is not `0x2A`
(R63 (b)). -/
def State.issueAfterInit (i : Instr) (s : State) : Host.Outcome State Fault Refusal :=
  if s.ready && s.blk.control != Config.controlWord then .refused (.commandBeforeInit i.opcode)
  else s.issue i

/-- The word the next step accepts, and the machine with that word taken from the script: the machine
is ready, the script holds a word, and it is the host's turn (R62, R166). After a reset that abandoned a
command the next word is presented without a response to the one before (log 25). -/
def State.fetch (s : State) : Option (CmdWord × State) :=
  if s.ready then
    match s.script, s.agenda with
    | [], _ => none
    | w :: ws, [] => some (w, { s with script := ws })
    | w :: ws, .host :: ms => some (w, { s with script := ws, agenda := ms })
    | _ :: _, .sequencer :: _ => none
    | _ :: _, .environment _ :: _ => none
    | _ :: _, .readResponse :: _ => none
    | _ :: _, .wait :: _ => none
    | _ :: _, .assertReset :: _ => none
    | _ :: _, .releaseReset :: _ => none
  else none

/-- A step in which no word is accepted: the next move of the agenda; with none left, a micro-step of
the command in progress, or the hang of R131, or, with no command in progress, nothing (R141). -/
def State.advance (s : State) : Host.Outcome State Fault Refusal :=
  match s.agenda with
  | m :: ms => .next ({ s with agenda := ms }.move m)
  | [] =>
    if s.blk.busy && !s.rst then
      match s.seqStep with
      | some t => .next t
      | none => .fault (.hang s.blk.upc)
    else .next s

/-- The refusal of a reserved word (R63 (a)). -/
def State.refuseReserved (w : CmdWord) (_ : State) : Host.Outcome State Fault Refusal :=
  .refused (.reservedCommand w)

/-- The machine with a word presented to it, so that the next step accepts it: reset released, no
command in progress, the host's turn, and, for a command other than INIT, the block configured as step
I0 leaves it wherever `CONTROL` is not `0x2A` (R63 (b); log 15). -/
def State.present (w : CmdWord) (s : State) : State :=
  let b := { s.blk with busy := false, upc := .idle }
  { s with
    blk := if opcodeField w == 0#3 || b.control == Config.controlWord then b else b.configure
    rst := false
    script := w :: s.script
    agenda := .host :: s.agenda }

end Sys2Proof.Machine
end

