-- ==== Sys2Proof/Machine/ByteCommands.lean ====
section
/-! DEFINITION. The meanings of the byte commands (42_byte_commands.md): each is accepted and its
micro-program (`writeProgram`, `readAckProgram`, `readNackProgram`) run, with TRANSFER twice. -/

namespace Sys2Proof.Machine

/-- WRITE (R120). -/
def execWrite (data : Byte) (s : State) : Host.Outcome State Fault Refusal :=
  s.issueAfterInit (.write data)

/-- READ_ACK (R121). -/
def execReadAck (ignored : Byte) (s : State) : Host.Outcome State Fault Refusal :=
  s.issueAfterInit (.readAck ignored)

/-- READ_NACK (R122). -/
def execReadNack (ignored : Byte) (s : State) : Host.Outcome State Fault Refusal :=
  s.issueAfterInit (.readNack ignored)

end Sys2Proof.Machine
end

