-- ==== Sys2Proof/Machine/Framing.lean ====
section
/-! DEFINITION. The meanings of the framing commands (41_framing_commands.md): each is accepted and its
micro-program (`initProgram`, `startProgram`, `stopProgram`) run. -/

namespace Sys2Proof.Machine

/-- INIT, accepted in any state with `BUSY = 0` (R110). -/
def execInit (ignored : Byte) (s : State) : Host.Outcome State Fault Refusal :=
  s.issue (.init ignored)

/-- START (R111). -/
def execStart (ignored : Byte) (s : State) : Host.Outcome State Fault Refusal :=
  s.issueAfterInit (.start ignored)

/-- STOP (R112). -/
def execStop (ignored : Byte) (s : State) : Host.Outcome State Fault Refusal :=
  s.issueAfterInit (.stop ignored)

end Sys2Proof.Machine
end

