-- ==== Sys2Proof/Machine/Dispatch.lean ====
section
/-! DEFINITION. One arm per command of the opcode table (30_encoding.md R61). -/

namespace Sys2Proof.Machine

def exec (i : Instr) (s : State) : Host.Outcome State Fault Refusal :=
  match i with
  | .init ignored => Sys2Proof.Machine.execInit ignored s
  | .start ignored => Sys2Proof.Machine.execStart ignored s
  | .stop ignored => Sys2Proof.Machine.execStop ignored s
  | .write data => Sys2Proof.Machine.execWrite data s
  | .readAck ignored => Sys2Proof.Machine.execReadAck ignored s
  | .readNack ignored => Sys2Proof.Machine.execReadNack ignored s

end Sys2Proof.Machine
end

