-- ==== Sys2Proof/Machine/Step.lean ====
section
/-! DEFINITION. One step of the machine (00_scope.md R6). -/

namespace Sys2Proof.Machine

/-- One step. Where the host's next word is accepted, it is decoded and the command it names is run to
its end (log 1), or the word is refused (R63 (a)); otherwise one agent makes its next move. -/
def step (s : State) : Host.Outcome State Fault Refusal :=
  match s.fetch with
  | some (w, t) =>
    match decode w with
    | some i => exec i t
    | none => t.refuseReserved w
  | none => s.advance

/-- `s` with the word of a table row presented by the host, so that the next step accepts and runs it
(log 15). -/
def State.withFetchWord (s : State) (nbits w : Nat) : State :=
  s.present (BitVec.ofNat 11 (w % 2 ^ nbits))

end Sys2Proof.Machine
end

