-- ==== Sys2Proof/Machine/Trail.lean ====
section
/-! DEFINITION. What is read off the trail of a command (70_reset_and_hazards.md R160, R166, R167): the
levels of the lines, the levels sampled at the rising edges, the micro-steps and the delays. -/

namespace Sys2Proof.Machine

/-- The state a list of events that starts in `s` ends in. -/
def lastState : State → List Event → State
  | s, [] => s
  | _, e :: es => lastState e.after es

/-- The `(scl_line, sda_line)` pairs after each step (R166). -/
def linesAfter (es : List Event) : List (Level × Level) := es.map fun e => e.after.lines

/-- A list with every entry equal to the one before it left out: the changes of the lines, as the line
states of 95_test_vectors.md are written. `prev` is the entry before the list. -/
def changesFrom (prev : Level × Level) : List (Level × Level) → List (Level × Level)
  | [] => []
  | x :: xs => if x == prev then changesFrom prev xs else x :: changesFrom x xs

/-- The changes of the lines over a trail that starts in `s`. -/
def State.lineChanges (s : State) (es : List Event) : List (Level × Level) :=
  changesFrom s.lines (linesAfter es)

/-- What is on the data line just before a rising edge of the clock line. -/
structure Sample where
  /-- The block's own contribution (R42). -/
  driven : Level
  /-- The environment's contribution (R44). -/
  env : Level
  /-- The level of the line (R43). -/
  level : Level
  deriving DecidableEq, Repr

/-- The state of the data line before each rising edge of the clock line with `XFER = 1`, in order, over
a trail that starts in `s` (R84, R97). -/
def risingSamples : State → List Event → List Sample
  | _, [] => []
  | s, e :: es =>
    if !s.sclLine && e.after.sclLine && e.after.blk.xfer then
      ⟨s.blk.mSda, s.env.sda, s.sdaLine⟩ :: risingSamples e.after es
    else risingSamples e.after es

/-- The number of falling edges of the clock line over a trail that starts in `s`. -/
def fallingEdges : State → List Event → Nat
  | _, [] => 0
  | s, e :: es => (if s.sclLine && !e.after.sclLine then 1 else 0) + fallingEdges e.after es

/-- The steps of a trail that starts in `s` in which the data line changes while the clock line reads
high before and after: the start and stop conditions on the bus (R9). -/
def conditions : State → List Event → List Event
  | _, [] => []
  | s, e :: es =>
    if s.sclLine && e.after.sclLine && (s.sdaLine != e.after.sdaLine) then
      e :: conditions e.after es
    else conditions e.after es

/-- A byte from its bits, most significant first (R47): the first level shifted in ends in bit 7. -/
def packByte (bits : List Level) : Byte := bits.foldl shiftIn 0x00#8

/-- The bits of a byte, most significant first (R47). -/
def bitsOf (d : Byte) : List Level :=
  [d.getLsbD 7, d.getLsbD 6, d.getLsbD 5, d.getLsbD 4, d.getLsbD 3, d.getLsbD 2, d.getLsbD 1, d.getLsbD 0]

/-- The labels of the micro-steps the sequencer performed (R167). -/
def performed (es : List Event) : List Label := es.filterMap fun e => e.label

/-- The constant a label's DELAY names, if it is one (R91). -/
def delayOf (l : Label) : Option Delay :=
  match microcode l with
  | none => none
  | some m =>
    match m.op with
    | .delay d => some d
    | _ => none

/-- The delays performed over a trail. -/
def delaysOf (es : List Event) : List Delay := (performed es).filterMap delayOf

/-- The least time a trail takes (R91, R160). -/
def leastTime (p : Params) (es : List Event) : Nat := ((delaysOf es).map p.duration).sum

end Sys2Proof.Machine
end

