-- ==== Sys2Proof/Machine/Run.lean ====
section
/-! DEFINITION. A run of the machine over several steps and what it shows (70_reset_and_hazards.md R166):
the responses in script order, the levels of the lines after each step, and the final state. -/

namespace Sys2Proof.Machine

/-- The atomic steps of the spec (R6) inside one step of the machine, each with the state after it: the
acceptance of a word and then the whole command it names, or the one step of the agent that moved. A
refused word leaves none, since it has no step (R63), and neither does a move that is not enabled. -/
def State.stepTrail (s : State) : List Event :=
  match s.fetch with
  | some (w, t) =>
    match decode w with
    | some i =>
      match exec i t with
      | .next _ => ⟨none, t.accepted i⟩ :: (t.accepted i).trail
      | .fault _ => []
      | .refused _ => []
    | none => []
  | none =>
    match s.agenda with
    | m :: ms => s.eventOf m ms
    | [] =>
      match s.seqStep with
      | some t => [⟨some s.blk.upc, t⟩]
      | none => []

/-- The atomic steps of a run of at most `n` steps of the machine, up to the first fault or refusal. -/
def State.runTrail : Nat → State → List Event
  | 0, _ => []
  | n + 1, s =>
    s.stepTrail ++
      match step s with
      | .next t => State.runTrail n t
      | .fault _ => []
      | .refused _ => []

/-- A label whose micro-step is FIN, the one that writes a response (R65, R92). -/
def Label.answers (l : Label) : Bool := (microcode l).any fun m => m.op.kind == .fin

/-- The response an event writes, if it is a FIN step (R65). -/
def Event.response (e : Event) : Option (Level × Byte) :=
  match e.label with
  | some l => if l.answers then e.after.blk.response else none
  | none => none

/-- The responses written over a trail, in order (R166). A command that is abandoned or blocked writes none. -/
def responses (es : List Event) : List (Level × Byte) := es.filterMap Event.response

/-- What a run shows (R166). -/
structure Shown where
  /-- The responses, one for each completed command, in script order. -/
  responses : List (Level × Byte)
  /-- `(scl_line, sda_line)` after each atomic step of the run, acceptances included; a planned move that was
  not enabled when its turn came is no step and has no entry. -/
  lines : List (Level × Level)
  /-- The registers of R10 at its end. -/
  last : Block
  deriving DecidableEq, Repr

/-- What the run of at most `n` steps from `s` shows (R166). -/
def State.shows (n : Nat) (s : State) : Shown where
  responses := Machine.responses (s.runTrail n)
  lines := linesAfter (s.runTrail n)
  last := (lastState s (s.runTrail n)).blk

end Sys2Proof.Machine
end

