-- ==== Sys2Proof/Machine/Slave.lean ====
section
/-! DEFINITION. The fourth obligation of a conforming environment, what an addressed slave puts on the data
line (20_memory.md R46, ENV4). It is a premise a claim may name; the block checks none of R46. -/

namespace Sys2Proof.Machine

/-- What the slave on the bus does during one command (R46, ENV4). Which role is whose after which address
byte is not the block's business (R50), so a claim names the role. -/
inductive SlaveRole where
  /-- It has not been addressed, or the command sends no byte. -/
  | silent
  /-- It takes the byte of a WRITE, and accepts it or not. -/
  | receives (accepts : Bool)
  /-- It sends the byte of a READ. -/
  | transmits (byte : Byte)
  deriving DecidableEq, Repr

/-- The slave's contribution to the data line in each clock pulse of the command (R46, ENV4): low in the
ninth pulse of a byte it accepts; the bits of the byte it transmits, most significant first (R47), in the
first eight; released otherwise. -/
def SlaveRole.contributions : SlaveRole → List Level
  | .silent => []
  | .receives accepts => List.replicate 8 true ++ [!accepts]
  | .transmits byte => bitsOf byte ++ [true]

/-- The environment keeps to a list of contributions over a trail that starts in `s`: each rising edge of
the clock line, with or without a transfer of the block, begins the next pulse and takes the next entry;
in the state before the edge, and while the line reads high, `e_sda` is that entry, and released when the
list is used up. `cur` is the entry of the pulse in progress. -/
def contributes (cur : Level) : List Level → State → List Event → Bool
  | _, _, [] => true
  | bits, s, e :: es =>
    if !s.sclLine && e.after.sclLine then
      let pulse := bits.headD true
      s.env.sda == pulse && e.after.env.sda == pulse && contributes pulse bits.tail e.after es
    else (!e.after.sclLine || e.after.env.sda == cur) && contributes cur bits e.after es

/-- ENV4 over the command in progress (R46). That each bit is put on the line while the clock is low is
ENV2's part. -/
def State.env4 (role : SlaveRole) (s : State) : Bool := contributes true role.contributions s s.trail

end Sys2Proof.Machine
end

