-- ==== Sys2Proof/Machine/TextForm.lean ====
section
/-! DEFINITION. The text form of a command (30_encoding.md R69, R70), over lists of characters: what an
assembler reads and what a tool prints. The layout the spec leaves open is in log 19. -/

namespace Sys2Proof.Machine.TextForm

/-- The value of `c` among `count` consecutive characters, of which `first` stands for `base`. -/
def digitFrom (first : Char) (count base : Nat) (c : Char) : Option Nat :=
  let place := c.toNat - first.toNat
  if first.toNat ≤ c.toNat && place < count then some (base + place) else none

/-- A decimal digit of a WRITE operand (R69). -/
def decimalDigit (c : Char) : Option Nat := digitFrom '0' 10 0 c

/-- A hexadecimal digit of a WRITE operand, its letters in either case (R69; log 19). -/
def hexDigit (c : Char) : Option Nat :=
  (decimalDigit c).orElse fun _ => (digitFrom 'A' 6 10 c).orElse fun _ => digitFrom 'a' 6 10 c

/-- A hexadecimal digit as a tool prints it, its letters in capitals. -/
def hexChar (value : Nat) : Char :=
  Char.ofNat (value + if value < 10 then '0'.toNat else 'A'.toNat - 10)

/-- A decimal number, its digits most significant first. -/
def decimalFrom : Nat → List Char → Option Nat
  | acc, [] => some acc
  | acc, c :: cs => (decimalDigit c).bind fun d => decimalFrom (10 * acc + d) cs

/-- A byte operand: `0x` and two hexadecimal digits, or a decimal number from 0 to 255 (R69). -/
def parseByte : List Char → Option Byte
  | [] => none
  | ['0', 'x', hi, lo] =>
    match hexDigit hi, hexDigit lo with
    | some h, some l => some (BitVec.ofNat 8 (16 * h + l))
    | _, _ => none
  | cs =>
    match decimalFrom 0 cs with
    | some n => if n < 256 then some (BitVec.ofNat 8 n) else none
    | none => none

/-- A byte as a tool prints it: `0x` and two hexadecimal digits (R69). -/
def renderByte (d : Byte) : List Char :=
  ['0', 'x', hexChar (d.toNat / 16), hexChar (d.toNat % 16)]

/-- The line without its comment: `;` starts a comment to the end of the line (R69). -/
def dropComment : List Char → List Char
  | [] => []
  | ';' :: _ => []
  | c :: cs => c :: dropComment cs

/-- A blank between tokens. -/
def isBlank (c : Char) : Bool := c == ' ' || c == '\t'

/-- The tokens of a line; `cur` is the token being read. -/
def tokensFrom : List Char → List Char → List (List Char)
  | cur, [] => if cur.isEmpty then [] else [cur]
  | cur, c :: cs =>
    if isBlank c then
      if cur.isEmpty then tokensFrom [] cs else cur :: tokensFrom [] cs
    else tokensFrom (cur ++ [c]) cs

/-- The command of a list of tokens. A command without an operand gets the bits an assembler writes,
`0x00` (R64); `RESTART` is `START` (R70). -/
def parseTokens : List (List Char) → Option Instr
  | [['I', 'N', 'I', 'T']] => some (.init 0x00#8)
  | [['S', 'T', 'A', 'R', 'T']] => some (.start 0x00#8)
  | [['R', 'E', 'S', 'T', 'A', 'R', 'T']] => some (.start 0x00#8)
  | [['S', 'T', 'O', 'P']] => some (.stop 0x00#8)
  | [['W', 'R', 'I', 'T', 'E'], d] => (parseByte d).map .write
  | [['R', 'E', 'A', 'D', '_', 'A', 'C', 'K']] => some (.readAck 0x00#8)
  | [['R', 'E', 'A', 'D', '_', 'N', 'A', 'C', 'K']] => some (.readNack 0x00#8)
  | _ => none

/-- A line with nothing but blanks and a comment holds no command. -/
def isEmptyLine (l : List Char) : Bool := (tokensFrom [] (dropComment l)).isEmpty

/-- The command of one line (R69). -/
def parseLine (l : List Char) : Option Instr := parseTokens (tokensFrom [] (dropComment l))

/-- The command words of a program, one command per line, or nothing if a line is no command. -/
def assemble : List (List Char) → Option (List CmdWord)
  | [] => some []
  | l :: ls =>
    if isEmptyLine l then assemble ls
    else
      match parseLine l, assemble ls with
      | some i, some ws => some (encode i :: ws)
      | _, _ => none

/-- A command as a tool prints it (R69). -/
def render : Instr → List Char
  | .init _ => ['I', 'N', 'I', 'T']
  | .start _ => ['S', 'T', 'A', 'R', 'T']
  | .stop _ => ['S', 'T', 'O', 'P']
  | .write d => ['W', 'R', 'I', 'T', 'E', ' '] ++ renderByte d
  | .readAck _ => ['R', 'E', 'A', 'D', '_', 'A', 'C', 'K']
  | .readNack _ => ['R', 'E', 'A', 'D', '_', 'N', 'A', 'C', 'K']

end Sys2Proof.Machine.TextForm
end

