-- ==== Sys2Proof/Safety.lean ====
section
/-! DEFINITION. The terms claims are made in: command boundaries (10_state.md R32), the obligations of
the environment (20_memory.md R46), final and hung states (70_reset_and_hazards.md R166,
60_exceptions.md R131), and the invariant of the machine. -/

namespace Sys2Proof.Machine

/-! ## Command boundaries -/

/-- The lines' and the shift register's resting values (R32): direction output, data released, `SR` at
the idle-high pattern, `SDO = 1`. -/
def Block.settled (b : Block) : Bool :=
  b.dirSda && b.outSda && b.sr == Config.idleHigh && b.sdo

/-- A command boundary after the first INIT, as R32 describes it. -/
def Block.atBoundary (b : Block) : Bool :=
  !b.busy && b.control == Config.controlWord && b.settled && b.dirScl && !b.xfer && b.upc == .idle

/-- The next command is accepted at a command boundary after INIT. -/
def State.atBoundary (s : State) : Bool := !s.rst && s.blk.atBoundary

/-- No move is planned: the environment is quiet and the sequencer alone moves. -/
def State.quiet (s : State) : Bool := s.agenda.isEmpty

/-! ## The environment -/

/-- ENV1 for one move: the environment pulls the clock low only while the clock line reads low (R46). -/
def Move.env1 (s : State) (m : Move) : Bool :=
  match m with
  | .environment .scl => !(s.env.scl && s.sclLine)
  | .environment .sda => true
  | .sequencer => true
  | .host => true
  | .readResponse => true
  | .wait => true
  | .assertReset => true
  | .releaseReset => true

/-- ENV2 for one move: the environment changes `e_sda` only while the clock line reads low (R46). -/
def Move.env2 (s : State) (m : Move) : Bool :=
  match m with
  | .environment .scl => true
  | .environment .sda => !s.sclLine
  | .sequencer => true
  | .host => true
  | .readResponse => true
  | .wait => true
  | .assertReset => true
  | .releaseReset => true

/-- `p` holds of every move of the agenda made while the command is in progress, in the state in which
it is made. -/
def State.agendaMeets (p : State → Move → Bool) : List Move → State → Bool
  | [], _ => true
  | m :: ms, s =>
    if s.blk.busy then
      p { s with agenda := ms } m && State.agendaMeets p ms ({ s with agenda := ms }.move m)
    else true

/-- ENV1 over the command in progress (R46). -/
def State.env1 (s : State) : Bool := s.agendaMeets Move.env1 s.agenda

/-- ENV2 over the command in progress (R46). -/
def State.env2 (s : State) : Bool := s.agendaMeets Move.env2 s.agenda

/-- The state in which the planned moves are used up, or the command is over. -/
def State.afterAgenda : List Move → State → State
  | [], s => s
  | m :: ms, s => if s.blk.busy then State.afterAgenda ms ({ s with agenda := ms }.move m) else s

/-- ENV3 over a finite agenda: if the command is still in progress when the environment stops moving, the
environment has let the clock line go (R46, R167 (b)). -/
def State.env3 (s : State) : Bool :=
  let t := s.afterAgenda s.agenda
  !t.blk.busy || t.env.scl

/-- The agenda asserts no reset. -/
def State.noReset (s : State) : Bool := s.agenda.all fun m => m != .assertReset

/-- The agenda moves no line. -/
def State.noEnvironment (s : State) : Bool :=
  s.agenda.all fun m => m != .environment .sda && m != .environment .scl

/-! ## The end of a run -/

/-- A final state (R166) of a run whose script was empty or not. -/
def State.final (scriptWasEmpty : Bool) (s : State) : Bool :=
  s.script.isEmpty && !s.blk.busy && s.blk.upc == .idle && (scriptWasEmpty || s.blk.rspValid)

/-- A command in progress whose micro-step is not enabled (R131). -/
def State.blocked (s : State) : Bool := s.blk.busy && !s.rst && s.seqStep.isNone

/-- A completed command: `BUSY = 0` with a valid response (R165). -/
def State.completed (s : State) : Bool := !s.blk.busy && s.blk.rspValid

/-! ## The invariant -/

/-- The labels at which `XFER = 1`: T1 to T8 (R23). -/
def Label.shifting : Label → Bool
  | .transfer .t0 => false
  | .transfer .t9 => false
  | .transfer .t10 => false
  | .transfer _ => true
  | _ => false

/-- The transfers of a byte, and those of one bit, told by where they return (R120 to R122). -/
def RetLabel.ofByte : RetLabel → Bool
  | .w3 | .a2 | .n2 => true
  | .wFin | .aFin | .nFin | .idle => false

/-- The first transfer of a READ, the one that may be entered with the clock released (R157). -/
def RetLabel.ofRead : RetLabel → Bool
  | .a2 | .n2 => true
  | .w3 | .wFin | .aFin | .nFin | .idle => false

/-- The transfers made with the data line as output: the byte of a WRITE and the answer of a READ
(R120 to R122). -/
def RetLabel.drivesData : RetLabel → Bool
  | .w3 | .aFin | .nFin => true
  | .a2 | .n2 | .wFin | .idle => false

/-- The opcode of the command a return label belongs to (R93). -/
def RetLabel.opcode : RetLabel → Opcode
  | .w3 | .wFin => 3#3
  | .a2 | .aFin => 4#3
  | .n2 | .nFin => 5#3
  | .idle => 0#3

/-- The STATUS word and the direction of the data line that go with a return label (R67, R120 to R122). -/
def Block.transferSetUp (b : Block) : Bool :=
  b.outSda && b.op == b.tret.opcode && b.tret.opcode != 0#3 &&
    b.tw == (if b.tret.ofByte then Config.statusByteWord else Config.statusBitWord) &&
    b.dirSda == b.tret.drivesData

/-- `OUT.SCL = 0`, but for the first pulse of a READ entered with the clock released (R98, R157). -/
def Block.clockHeldLow (b : Block) : Bool :=
  !b.outScl || (b.tret.ofRead && b.cnt == 0#4)

/-- The counter between the two strobes of a pulse (odd), and between pulses (even), in the range its
preset leaves it (R96). -/
def Block.counting (odd : Bool) (b : Block) : Bool :=
  b.cnt.getLsbD 0 == odd && (b.tret.ofByte || 14#4 ≤ b.cnt)

/-- What holds of the block at a label, between INIT and the next reset: the values R32 derives for the
command boundary, carried through the micro-programs. -/
def Block.shape (b : Block) : Bool :=
  match b.upc with
  | .idle => b.settled
  | .init .i0 => b.settled && b.op == 0#3
  | .init .iFin => b.settled && b.outScl && b.op == 0#3
  | .start .s0 => b.settled && b.op == 1#3
  | .start .s1 => b.settled && b.outScl && b.op == 1#3
  | .start .s2 => b.settled && b.outScl && b.op == 1#3
  | .start .s3 => b.settled && b.outScl && b.op == 1#3
  | .start .s4 => b.dirSda && !b.outSda && b.outScl && b.sr == Config.idleHigh && b.sdo && b.op == 1#3
  | .start .s5 => b.dirSda && !b.outSda && b.outScl && b.sr == Config.idleHigh && b.sdo && b.op == 1#3
  | .start .s6 => b.dirSda && !b.outSda && !b.outScl && b.sr == Config.idleHigh && b.sdo && b.op == 1#3
  | .start .sFin => b.settled && !b.outScl && b.op == 1#3
  | .stop .p0 => b.settled && b.op == 2#3
  | .stop .p1 => b.dirSda && !b.outSda && b.sr == Config.idleHigh && b.sdo && b.op == 2#3
  | .stop .p2 => b.dirSda && !b.outSda && b.outScl && b.sr == Config.idleHigh && b.sdo && b.op == 2#3
  | .stop .p3 => b.dirSda && !b.outSda && b.outScl && b.sr == Config.idleHigh && b.sdo && b.op == 2#3
  | .stop .p4 => b.dirSda && !b.outSda && b.outScl && b.sr == Config.idleHigh && b.sdo && b.op == 2#3
  | .stop .p5 => b.settled && b.outScl && b.op == 2#3
  | .stop .pFin => b.settled && b.outScl && b.op == 2#3
  | .write .w0 => b.settled && b.op == 3#3
  | .write .w1 => b.settled && !b.outScl && b.op == 3#3
  | .write .w2 => b.dirSda && b.outSda && !b.outScl && b.sr == b.arg && b.op == 3#3
  | .write .w3 => b.settled && !b.outScl && b.op == 3#3
  | .write .w4 => !b.dirSda && b.outSda && !b.outScl && b.sr == Config.idleHigh && b.sdo && b.op == 3#3
  | .write .wFin => b.settled && !b.outScl && b.op == 3#3
  | .readAck .a0 => b.settled && b.op == 4#3
  | .readAck .a1 => !b.dirSda && b.outSda && b.sr == Config.idleHigh && b.sdo && b.op == 4#3
  | .readAck .a2 => b.settled && !b.outScl && b.op == 4#3
  | .readAck .a3 => b.dirSda && b.outSda && !b.outScl && b.sr == Config.allZero && b.op == 4#3
  | .readAck .aFin => b.settled && !b.outScl && b.op == 4#3
  | .readNack .n0 => b.settled && b.op == 5#3
  | .readNack .n1 => !b.dirSda && b.outSda && b.sr == Config.idleHigh && b.sdo && b.op == 5#3
  | .readNack .n2 => b.settled && !b.outScl && b.op == 5#3
  | .readNack .n3 => b.dirSda && b.outSda && !b.outScl && b.sr == Config.idleHigh && b.op == 5#3
  | .readNack .nFin => b.settled && !b.outScl && b.op == 5#3
  | .transfer .t0 =>
    b.transferSetUp && (!b.outScl || b.tret.ofRead)
  | .transfer .t1 => b.transferSetUp && b.clockHeldLow && b.counting false && !b.fOvf
  | .transfer .t2 => b.transferSetUp && b.clockHeldLow && b.counting false && !b.fOvf
  | .transfer .t3 =>
    b.transferSetUp && b.counting true && !b.fOvf && (b.outScl || (b.tret.ofRead && b.cnt == 1#4))
  | .transfer .t4 => b.transferSetUp && b.counting true && !b.fOvf && b.outScl
  | .transfer .t5 => b.transferSetUp && b.counting true && !b.fOvf && b.outScl
  | .transfer .t6 =>
    b.transferSetUp && !b.outScl && b.fOvf == (b.cnt == 0#4) && !b.cnt.getLsbD 0 &&
      (b.tret.ofByte || b.cnt == 0#4)
  | .transfer .t7 => b.transferSetUp && !b.outScl && b.fOvf && b.cnt == 0#4
  | .transfer .t8 => b.transferSetUp && !b.outScl && b.fOvf && b.cnt == 0#4
  | .transfer .t9 => b.transferSetUp && !b.outScl && b.fOvf && b.cnt == 0#4
  | .transfer .t10 =>
    b.transferSetUp && !b.outScl && b.fOvf && b.cnt == 0#4 && b.sr == Config.idleHigh && b.sdo

/-- The invariant of the block in an environment: `BUSY` and `UPC` agree (R24, R26), `XFER` is 1 exactly
from T1 to T8 (R23), `CONTROL` holds one of its two values (R22), before the first INIT only INIT has
been accepted (R63), and after it the clock line is an output (R11), the latch is transparent while the
clock reads low (R15), and the registers have the shape of the label. -/
def Block.inv (e : Env) (b : Block) : Bool :=
  b.busy == (b.upc != .idle) && b.xfer == b.upc.shifting &&
    ((b.control == 0x00#8 && (b.upc == .idle || (b.upc == .init .i0 && b.op == 0#3)) &&
        !b.dirSda && !b.dirScl) ||
      (b.control == Config.controlWord && b.dirScl && (b.sclLine e || b.sdo == b.sr.getLsbD 7) &&
        b.shape))

/-- The invariant of the machine: the block's, and the reset state while reset is asserted (R150). -/
def State.inv (s : State) : Bool := s.blk.inv s.env && (!s.rst || s.blk == Block.reset)

end Sys2Proof.Machine
end

