-- ==== Sys2Proof/Certificates/Slice0/Obligations.lean ====
section
/-! DEFINITION. The statements about the machine, from the numbered rules of spec/. Each docstring says
which rule a statement formalises. Every statement about `exec` is about a whole command, run in one step
(log 1) over the moves planned in the agenda (log 2). `State.inv` is the invariant of the machine (Safety.lean); that it
holds at reset and that every step keeps it are statements of their own. -/

open Sys2Proof Sys2Proof.Machine

/-! ## Steps, acceptance, refusals -/

/-- A step in which the host's word is accepted is the execution of the command it decodes to, in the
machine with that word, and the host's turn, taken away (R62, R166). That the whole command is one step is
the model's choice (log 1). -/
def Obligations.StepRunsTheDecodedCommand : Prop :=
  ∀ (s : State) (w : CmdWord) (ws : List CmdWord) (ms : List Move) (i : Instr),
    s.ready = true → s.script = w :: ws →
    (s.agenda = .host :: ms ∨ (s.agenda = [] ∧ ms = [])) → decode w = some i →
    step s = exec i { s with script := ws, agenda := ms }

/-- A step in which no word is accepted: the next move of the agenda; with none left, the micro-step of
the command in progress, or its hang as the fault that names the label, or, with no command in progress,
nothing (R6, R80, R131, R141). The agenda (log 2) and the form of the hang (log 9) are the model's. -/
def Obligations.OtherStepsMoveOneAgent : Prop :=
  ∀ s : State, s.fetch = none →
    (∀ m ms, s.agenda = m :: ms → step s = .next ({ s with agenda := ms }.move m)) ∧
    (s.agenda = [] → s.blk.busy = false → step s = .next s) ∧
    (s.agenda = [] → s.blk.busy = true → s.rst = false →
      (∀ b, s.blk.seqStep s.env = some b → step s = .next { s with blk := b }) ∧
      (s.blk.seqStep s.env = none → step s = .fault (.hang s.blk.upc)))

/-- Reserved words are refused; a command other than INIT is refused while `CONTROL` is not `0x2A` and
runs once it is; INIT always runs (R63, R110). The refusals by name are the model's form of R63 (log 10). -/
def Obligations.ReservedWordsAndEarlyCommandsAreRefused : Prop :=
  ∀ s : State, s.ready = true →
    (∀ w ws ms, s.script = w :: ws → (s.agenda = .host :: ms ∨ s.agenda = []) →
      (opcodeField w = 6#3 ∨ opcodeField w = 7#3) → step s = .refused (.reservedCommand w)) ∧
    (∀ i : Instr, i.opcode ≠ 0#3 → s.blk.control ≠ 0x2A#8 →
      exec i s = .refused (.commandBeforeInit i.opcode)) ∧
    (∀ i : Instr, i.opcode ≠ 0#3 → s.blk.control = 0x2A#8 → ∃ t, exec i s = .next t) ∧
    (∀ d : Byte, ∃ t, exec (.init d) s = .next t)

/-- While `BUSY = 1` a presented command has no effect, and its word stays presented (R62; that the host
keeps it presented is log 11). -/
def Obligations.ABusyBlockAcceptsNothing : Prop :=
  ∀ s : State, s.blk.busy = true →
    (∀ i : Instr, exec i s = .next s) ∧
    (∀ ms, s.agenda = .host :: ms → step s = .next { s with agenda := ms })

/-- Acceptance latches the opcode and the operand bits of the command word, sets `BUSY`, clears
`RSP_VALID`, sends `UPC` to the command's first label, and changes nothing else; the command is then run,
in the same step (R60, R61, R62, R64; log 1). -/
def Obligations.AcceptanceLatchesTheCommand : Prop :=
  ∀ (i : Instr) (s : State), s.ready = true → (i.opcode = 0#3 ∨ s.blk.control = 0x2A#8) →
    exec i s = .next (State.run { s with blk := { s.blk with
      op := opcodeField (encode i)
      arg := operandField (encode i)
      busy := true
      rspValid := false
      upc := match i with
        | .init _ => .init .i0
        | .start _ => .start .s0
        | .stop _ => .stop .p0
        | .write _ => .write .w0
        | .readAck _ => .readAck .a0
        | .readNack _ => .readNack .n0 } })

/-! ## Encoding -/

/-- Decoding and encoding agree on every word and every command, with every operand, and exactly the words
with opcode 6 or 7 decode to nothing (R60, R61, R63, R64). -/
def Obligations.DecodeAndEncodeAgree : Prop :=
  (∀ (w : CmdWord) (i : Instr), decode w = some i ↔ encode i = w) ∧
  (∀ w : CmdWord, decode w = none ↔ opcodeField w = 6#3 ∨ opcodeField w = 7#3)

/-- Command words written out bit by bit decode to the commands they stand for (R61,
95_test_vectors.md section 2.1). -/
def Obligations.WordsOfTheSpecDecode : Prop :=
  decode 0b00000000000#11 = some (.init 0x00#8) ∧ decode 0b00011111111#11 = some (.init 0xFF#8) ∧
  decode 0b00100000000#11 = some (.start 0x00#8) ∧ decode 0b01000000000#11 = some (.stop 0x00#8) ∧
  decode 0b01110100000#11 = some (.write 0xA0#8) ∧ decode 0b10000000000#11 = some (.readAck 0x00#8) ∧
  decode 0b10110100101#11 = some (.readNack 0xA5#8) ∧ decode 0b11000000000#11 = none ∧
  decode 0b11111111111#11 = none

/-- A command in the text form reads back as that command, with no comment, with one after a blank or with one
right after the last token: WRITE with its operand in hexadecimal, as a tool prints it, or in decimal; the
others with no operand; `RESTART` reads as START (R69, R70; the blanks are log 19). -/
def Obligations.TextFormReadsBack : Prop :=
  ∀ (c : List Char), (c = [] ∨ (∃ r, c = ';' :: r) ∨ ∃ r, c = ' ' :: ';' :: r) →
    (∀ d : Byte, TextForm.parseLine (TextForm.render (.write d) ++ c) = some (.write d)) ∧
    (∀ d : Byte,
      TextForm.parseLine (['W', 'R', 'I', 'T', 'E', ' '] ++ Nat.toDigits 10 d.toNat ++ c) =
        some (.write d)) ∧
    (∀ i ∈ [Instr.init 0#8, .start 0#8, .stop 0#8, .readAck 0#8, .readNack 0#8],
      TextForm.parseLine (TextForm.render i ++ c) = some i) ∧
    TextForm.parseLine (['R', 'E', 'S', 'T', 'A', 'R', 'T'] ++ c) = some (.start 0#8)

/-! ## Lines, flags and primitives -/

/-- Each line reads low exactly when the block or the environment pulls it low (R41, R42, R43). -/
def Obligations.LinesAreWiredAnd : Prop :=
  ∀ s : State,
    (s.sclLine = false ↔ (s.blk.dirScl = true ∧ s.blk.outScl = false) ∨ s.env.scl = false) ∧
    (s.sdaLine = false ↔
      (s.blk.dirSda = true ∧ (s.blk.outSda = false ∨ s.blk.sdo = false)) ∨ s.env.sda = false)

/-- The line update, clause by clause (R84): nothing with the unit disabled; otherwise the shift on a
rising edge while `XFER = 1` of the level before the edge, the latch, and the two flags, judged with the
new level of the data line. -/
def Obligations.LineUpdateFollowsTheLines : Prop :=
  ∀ (e : Env) (scl0 sda0 : Level) (b : Block),
    let b' := b.lineUpdate e scl0 sda0
    (b.control.extractLsb' 4 2 ≠ 0b10#2 → b' = b) ∧
    (b.control.extractLsb' 4 2 = 0b10#2 →
      (scl0 = false → b.sclLine e = true → b.xfer = true →
        b'.sr = b.sr.extractLsb' 0 7 ++ BitVec.ofBool sda0) ∧
      (scl0 = true ∨ b.sclLine e = false ∨ b.xfer = false → b'.sr = b.sr) ∧
      (b.sclLine e = false → b'.sdo = b'.sr.getLsbD 7) ∧
      (b.sclLine e = true → b'.sdo = b.sdo) ∧
      (b'.fStart = true ↔ b.fStart = true ∨
        (scl0 = true ∧ b.sclLine e = true ∧ sda0 = true ∧ b'.sdaLine e = false)) ∧
      (b'.fStop = true ↔ b.fStop = true ∨
        (scl0 = true ∧ b.sclLine e = true ∧ sda0 = false ∧ b'.sdaLine e = true))) ∧
    b' = { b with sr := b'.sr, sdo := b'.sdo, fStart := b'.fStart, fStop := b'.fStop }

/-- SET_OUT and SET_DIR (R85, R86): the step writes its latch, or the direction of the data line, and the line
update follows. Between INIT and reset a latch written 0 pulls its line low, one written 1 leaves the line
to the environment, and one that holds the value already changes nothing but `UPC`. The data line as an
input is not driven by the block, as an output it is driven by `OUT.SDA` and `SDO`. The direction of the
clock line is changed by step I0 alone. -/
def Obligations.OutputLatchAndDirectionSteps : Prop :=
  ∀ (e : Env) (b b' : Block), b.seqStep e = some b' →
    (∀ v next, microcode b.upc = some ⟨.setOut .sda v, next⟩ →
      b' = ({ b with outSda := v, upc := next } : Block).lineUpdate e (b.sclLine e) (b.sdaLine e) ∧
      (b.inv e = true →
        (b'.sdaLine e = (v && e.sda)) ∧ (b.outSda = v → b' = { b with upc := next }))) ∧
    (∀ v next, microcode b.upc = some ⟨.setOut .scl v, next⟩ →
      b' = ({ b with outScl := v, upc := next } : Block).lineUpdate e (b.sclLine e) (b.sdaLine e) ∧
      (b.inv e = true →
        (b'.sclLine e = (v && e.scl)) ∧ (b.outScl = v → b' = { b with upc := next }))) ∧
    (∀ v next, microcode b.upc = some ⟨.setDirSda v, next⟩ →
      b' = ({ b with dirSda := v, upc := next } : Block).lineUpdate e (b.sclLine e) (b.sdaLine e)) ∧
    (∀ next, microcode b.upc = some ⟨.restoreAndReturn, next⟩ →
      b' = ({ b with dirSda := true, upc := b.tret.toLabel } : Block).lineUpdate
        e (b.sclLine e) (b.sdaLine e)) ∧
    (b'.dirSda = false → b'.mSda = true) ∧
    (b'.dirSda = true → b'.mSda = (b'.outSda && b'.sdo)) ∧
    (b'.dirScl ≠ b.dirScl → b.upc = .init .i0)

/-- LOAD_SR (R87), between INIT and reset: each load, of a constant at T9, A2 and N2 and of `ARG` at W1, is made
with the clock line low, so that `SDO` takes bit 7 of the byte at once, the data line with it where it is an
output, and no condition is made; A2 and N2 save `CAP` in `RXB` in the same step (R121, R122). -/
def Obligations.ShiftRegisterLoadsAreMadeWithTheClockLow : Prop :=
  ∀ (e : Env) (b b' : Block) (v : Byte), b.inv e = true → b.seqStep e = some b' →
    ((b.upc = .write .w1 ∧ v = b.arg) ∨ (b.upc = .readAck .a2 ∧ v = 0x00#8) ∨
      (b.upc = .readNack .n2 ∧ v = 0xFF#8) ∨ (b.upc = .transfer .t9 ∧ v = 0xFF#8)) →
    b.sclLine e = false ∧ b'.sclLine e = false ∧ b'.sr = v ∧ b'.sdo = v.getLsbD 7 ∧
      b'.sdaLine e = (e.sda && (!b.dirSda || v.getLsbD 7)) ∧
      b'.fStart = b.fStart ∧ b'.fStop = b.fStop ∧
      b'.rxb = if b.upc = .readAck .a2 ∨ b.upc = .readNack .n2 then b.cap else b.rxb

/-- A STATUS write (R88): bits 7, 6 and 5 clear the flag they name, bit 4 is ignored, bits 3:0 load the
counter, nothing else changes; it is used in step T0 only, and there, in every state of the invariant,
with the word `0xF0` or `0xFE`. -/
def Obligations.StatusWriteClearsAndLoads : Prop :=
  (∀ (w : Byte) (b : Block),
    b.writeStatus w = { b with
      fStart := if w.getLsbD 7 then false else b.fStart
      fOvf := if w.getLsbD 6 then false else b.fOvf
      fStop := if w.getLsbD 5 then false else b.fStop
      cnt := w.extractLsb' 0 4 }) ∧
  (∀ (l : Label) (m : MicroStep), microcode l = some m →
    (m.op = .beginTransfer ↔ l = .transfer .t0)) ∧
  (∀ (e : Env) (b : Block), b.busy = true → b.upc = .transfer .t0 →
    b.seqStep e = some (({ b.writeStatus b.tw with xfer := true, upc := .transfer .t1 } : Block).lineUpdate
      e (b.sclLine e) (b.sdaLine e))) ∧
  (∀ s : State, s.inv = true → s.blk.upc = .transfer .t0 → s.blk.tw = 0xF0#8 ∨ s.blk.tw = 0xFE#8)

/-- The clock-toggle strobe of T2 and T5 (R89): `OUT.SCL` is flipped, the counter advances by one modulo
16, the step from 15 to 0 sets `F_OVF` and no strobe clears it; the line update follows. -/
def Obligations.StrobeTogglesAndCounts : Prop :=
  ∀ (e : Env) (b : Block), b.busy = true → (b.upc = .transfer .t2 ∨ b.upc = .transfer .t5) →
    b.seqStep e = some (({ b with
      outScl := !b.outScl
      cnt := b.cnt + 1#4
      fOvf := if b.cnt = 15#4 then true else b.fOvf
      upc := if b.upc = .transfer .t2 then .transfer .t3 else .transfer .t6 } : Block).lineUpdate
        e (b.sclLine e) (b.sdaLine e))

/-- WAIT_SCL (R90): at S1, P2 and T3 the micro-step is enabled exactly when the clock line reads high, and
then changes nothing but `UPC`; while it reads low no move but a step of the environment on the clock
line, or reset, changes that or the label, and such a step enables it where the block has released the
clock. The micro-step before a WAIT releases the clock: S0 and P1 always, T2 where TRANSFER was entered
with the clock held low. -/
def Obligations.WaitsEndOnlyWhenTheClockReadsHigh : Prop :=
  (∀ (s : State) (next : Label), s.rst = false → s.blk.busy = true →
    ((s.blk.upc = .start .s1 ∧ next = .start .s2) ∨ (s.blk.upc = .stop .p2 ∧ next = .stop .p3) ∨
      (s.blk.upc = .transfer .t3 ∧ next = .transfer .t4)) →
    (s.sclLine = true → s.seqStep = some { s with blk := { s.blk with upc := next } }) ∧
    (s.sclLine = false →
      s.seqStep = none ∧
      (∀ m : Move, m ≠ .environment .scl → m ≠ .assertReset →
        (s.move m).blk.upc = s.blk.upc ∧ (s.move m).seqStep = none) ∧
      (s.blk.mScl = true → (s.move (.environment .scl)).seqStep.isSome = true))) ∧
  (∀ (e : Env) (b b' : Block), b.seqStep e = some b' →
    (b'.upc = .start .s1 → b.upc = .start .s0 ∧ b'.mScl = true) ∧
    (b'.upc = .stop .p2 → b.upc = .stop .p1 ∧ b'.mScl = true) ∧
    (b'.upc = .transfer .t3 → b.upc = .transfer .t2 ∧ (b.outScl = false → b'.mScl = true)))

/-- BRANCH (R94): T6 goes to T7 if `F_OVF` is set, else to T1, and comes only after T5; every other
micro-step goes to one fixed label, but for T10, which returns to `TRET`; TRANSFER is entered only from
the six CALL steps. -/
def Obligations.OnlyT6BranchesOnData : Prop :=
  (∀ (e : Env) (b : Block), b.busy = true → b.upc = .transfer .t6 →
    ∃ b', b.seqStep e = some b' ∧
      b'.upc = if b.fOvf then .transfer .t7 else .transfer .t1) ∧
  (∀ (e : Env) (b b' : Block), b.seqStep e = some b' → b.upc = .transfer .t10 →
    b'.upc = b.tret.toLabel) ∧
  (∀ (e f : Env) (b b' c c' : Block), b.seqStep e = some b' → c.seqStep f = some c' →
    b.upc = c.upc → b.upc ≠ .transfer .t6 → b.upc ≠ .transfer .t10 → b'.upc = c'.upc) ∧
  (∀ (e : Env) (b b' : Block), b.seqStep e = some b' →
    (b'.upc = .transfer .t6 → b.upc = .transfer .t5) ∧
    (b'.upc = .transfer .t0 →
      b.upc = .write .w2 ∨ b.upc = .write .w4 ∨ b.upc = .readAck .a1 ∨ b.upc = .readAck .a3 ∨
        b.upc = .readNack .n1 ∨ b.upc = .readNack .n3))

/-- FIN is the only micro-step that clears `BUSY`; it writes the response of its command, sets
`RSP_VALID`, goes to `IDLE` and changes nothing else (R65, R92). -/
def Obligations.OnlyFinEndsACommand : Prop :=
  ∀ (e : Env) (b b' : Block), b.seqStep e = some b' →
    (b'.busy = false ↔
      b.upc = .init .iFin ∨ b.upc = .start .sFin ∨ b.upc = .stop .pFin ∨ b.upc = .write .wFin ∨
        b.upc = .readAck .aFin ∨ b.upc = .readNack .nFin) ∧
    (b'.busy = false →
      b' = { b with
        rspAck := if b.upc = .write .wFin then !b.cap.getLsbD 0 else false
        rspData := if b.upc = .readAck .aFin ∨ b.upc = .readNack .nFin then b.rxb else 0x00#8
        rspValid := true
        busy := false
        upc := .idle })

/-- The directions, the output latches, `CNT`, `F_OVF`, `F_COLL`, `CONTROL`, `XFER`, `OP`, `ARG`, `TRET`, `TW`,
`CAP`, `RXB` and the response change only at the steps the rules name, and `SR` only there or while
`XFER = 1` (R11, R12, R14, R16, R18, R20, R22, R23, R25, R26, R27, R28). -/
def Obligations.RegistersAreWrittenByTheirStepsAlone : Prop :=
  ∀ (e : Env) (b b' : Block), b.seqStep e = some b' →
    (b'.dirScl ≠ b.dirScl ∨ b'.control ≠ b.control ∨ b'.fColl ≠ b.fColl → b.upc = .init .i0) ∧
    (b'.dirSda ≠ b.dirSda →
      b.upc = .init .i0 ∨ b.upc = .write .w3 ∨ b.upc = .readAck .a0 ∨ b.upc = .readNack .n0 ∨
        b.upc = .transfer .t10) ∧
    (b'.outSda ≠ b.outSda →
      b.upc = .init .i0 ∨ b.upc = .start .s3 ∨ b.upc = .start .s6 ∨ b.upc = .stop .p0 ∨
        b.upc = .stop .p4) ∧
    (b'.outScl ≠ b.outScl →
      b.upc = .init .i0 ∨ b.upc = .start .s0 ∨ b.upc = .start .s5 ∨ b.upc = .stop .p1 ∨
        b.upc = .write .w0 ∨ b.upc = .transfer .t2 ∨ b.upc = .transfer .t5) ∧
    (b'.cnt ≠ b.cnt ∨ b'.fOvf ≠ b.fOvf →
      b.upc = .init .i0 ∨ b.upc = .transfer .t0 ∨ b.upc = .transfer .t2 ∨ b.upc = .transfer .t5) ∧
    (b'.sr ≠ b.sr →
      b.upc = .init .i0 ∨ b.upc = .write .w1 ∨ b.upc = .readAck .a2 ∨ b.upc = .readNack .n2 ∨
        b.upc = .transfer .t9 ∨ b.xfer = true) ∧
    (b'.xfer ≠ b.xfer → b.upc = .init .i0 ∨ b.upc = .transfer .t0 ∨ b.upc = .transfer .t8) ∧
    (b'.tret ≠ b.tret ∨ b'.tw ≠ b.tw →
      b.upc = .write .w2 ∨ b.upc = .write .w4 ∨ b.upc = .readAck .a1 ∨ b.upc = .readAck .a3 ∨
        b.upc = .readNack .n1 ∨ b.upc = .readNack .n3) ∧
    (b'.cap ≠ b.cap → b.upc = .transfer .t8) ∧
    (b'.rxb ≠ b.rxb → b.upc = .readAck .a2 ∨ b.upc = .readNack .n2) ∧
    (b'.rspValid ≠ b.rspValid ∨ b'.rspAck ≠ b.rspAck ∨ b'.rspData ≠ b.rspData → b'.busy = false) ∧
    b'.op = b.op ∧ b'.arg = b.arg

/-- The registers the line update writes, and `BUSY` and `UPC`, in every state of the invariant: `SR` is loaded
at W1, A2, N2 and T9, shifts at T2 and at no other micro-step, and changes elsewhere only at I0; `SDO`
changes only at I0, W1, A2, T5 and T9, and at a T2 that pulls the clock low, that of a READ entered with
the clock released (R98, R157), where it takes `SR[7]`; `F_START` is set only at S3 and P0, `F_STOP` only at P4, and both are
cleared only at I0 and T0; `BUSY` changes only at a FIN step, and `UPC` at every step (R14, R15, R17, R19,
R24, R26, R83, R84). -/
def Obligations.LineUpdateRegistersChangeAtTheirStepsAlone : Prop :=
  ∀ (e : Env) (b b' : Block), b.inv e = true → b.seqStep e = some b' →
    (b'.sr ≠ b.sr →
      b.upc = .init .i0 ∨ b.upc = .write .w1 ∨ b.upc = .readAck .a2 ∨ b.upc = .readNack .n2 ∨
        b.upc = .transfer .t9 ∨
        (b.upc = .transfer .t2 ∧ b'.sclLine e = true ∧
          b'.sr = b.sr.extractLsb' 0 7 ++ BitVec.ofBool (b.sdaLine e))) ∧
    (b.upc = .transfer .t2 → e.scl = true → b.outScl = false →
      b'.sr = b.sr.extractLsb' 0 7 ++ BitVec.ofBool (b.sdaLine e)) ∧
    (b'.sdo ≠ b.sdo →
      b.upc = .init .i0 ∨ b.upc = .write .w1 ∨ b.upc = .readAck .a2 ∨ b.upc = .transfer .t5 ∨
        b.upc = .transfer .t9 ∨
        (b.upc = .transfer .t2 ∧ b.outScl = true ∧ b.tret.ofRead = true ∧ b'.sdo = b.sr.getLsbD 7)) ∧
    (b'.fStart ≠ b.fStart →
      (b'.fStart = true ∧ (b.upc = .start .s3 ∨ b.upc = .stop .p0)) ∨
        (b'.fStart = false ∧ (b.upc = .init .i0 ∨ b.upc = .transfer .t0))) ∧
    (b'.fStop ≠ b.fStop →
      (b'.fStop = true ∧ b.upc = .stop .p4) ∨
        (b'.fStop = false ∧ (b.upc = .init .i0 ∨ b.upc = .transfer .t0))) ∧
    (b'.busy ≠ b.busy →
      b.upc = .init .iFin ∨ b.upc = .start .sFin ∨ b.upc = .stop .pFin ∨ b.upc = .write .wFin ∨
        b.upc = .readAck .aFin ∨ b.upc = .readNack .nFin) ∧
    b'.upc ≠ b.upc

/-- The sequencer makes a start condition on the lines only at S3, and at P0 where the clock is high, and
a stop condition only at P4 (R87, R111, R112): no other micro-step moves the data line while the clock
line reads high. -/
def Obligations.OnlyFramingStepsMakeConditions : Prop :=
  ∀ (e : Env) (b b' : Block), b.inv e = true → b.seqStep e = some b' →
    b.sclLine e = true → b'.sclLine e = true → b'.sdaLine e ≠ b.sdaLine e →
    ((b.upc = .start .s3 ∨ b.upc = .stop .p0) ∧ b'.sdaLine e = false) ∨
      (b.upc = .stop .p4 ∧ b'.sdaLine e = true)

/-- The STATUS view lays the flags and the counter out as R21 says; bit 4 is any value (log 6). -/
def Obligations.StatusViewLayout : Prop :=
  ∀ (coll : Bool) (b : Block),
    (b.status coll).getLsbD 7 = b.fStart ∧ (b.status coll).getLsbD 6 = b.fOvf ∧
    (b.status coll).getLsbD 5 = b.fStop ∧ (b.status coll).extractLsb' 0 4 = b.cnt ∧
    (b.status coll).getLsbD 4 = coll

/-! ## The invariant -/

/-- What reset leaves in the block, value by value (R31): nothing is driven and the lines are the environment's,
a command can be accepted, and only INIT is (R150, R63). The values are the spec's own choice (log 5). -/
def Obligations.ResetLeavesTheValuesOfTheTable : Prop :=
  (∀ (s : State) (ms : List Move), s.agenda = .assertReset :: ms →
    ∃ t, step s = .next t ∧ t.blk = State.reset.blk ∧ t.lines = (s.env.scl, s.env.sda)) ∧
  State.reset.blk =
    { dirSda := false, dirScl := false, outSda := false, outScl := false, sr := 0x00#8, sdo := true
      cnt := 0#4, fStart := false, fOvf := false, fStop := false, fColl := false, control := 0x00#8
      xfer := false, busy := false, op := 0#3, arg := 0x00#8, upc := .idle, tret := .idle, tw := 0x00#8
      cap := 0x00#8, rxb := 0x00#8, rspValid := false, rspAck := false, rspData := 0x00#8 } ∧
  State.reset.ready = true ∧
  (∀ i : Instr, (∃ t, exec i State.reset = .next t) ↔ i.opcode = 0#3)

/-- The invariant holds right after reset (R31). -/
def Obligations.InvariantHoldsAtReset : Prop := State.reset.inv = true

/-- Every step keeps the invariant, from every state that has it, whatever the environment and the host do
(R22, R23, R24, R26, R32, R150). -/
def Obligations.EveryStepKeepsTheInvariant : Prop :=
  ∀ s t : State, s.inv = true → step s = .next t → t.inv = true

/-- Every atomic step of a command keeps the invariant too: it holds at every state of the command's trail,
and so between any two micro-steps (R32, R80). -/
def Obligations.TheInvariantHoldsAllAlongACommand : Prop :=
  ∀ (i : Instr) (s : State), s.inv = true → s.ready = true →
    (i.opcode = 0#3 ∨ s.blk.control = 0x2A#8) →
    ∀ e ∈ (s.accepted i).trail, e.after.inv = true

/-- At a command boundary after the first INIT the registers rest as R32 says and the block does not pull
the data line low; before it the block drives neither line (R32, R150). -/
def Obligations.RestingValuesAtCommandBoundaries : Prop :=
  ∀ s : State, s.inv = true → s.blk.busy = false →
    (s.blk.control = 0x2A#8 →
      s.blk.dirSda = true ∧ s.blk.dirScl = true ∧ s.blk.outSda = true ∧ s.blk.sr = 0xFF#8 ∧
        s.blk.sdo = true ∧ s.blk.xfer = false ∧ s.blk.upc = .idle ∧ s.blk.mSda = true) ∧
    (s.blk.control ≠ 0x2A#8 → s.blk.control = 0x00#8 ∧ s.sclLine = s.env.scl ∧ s.sdaLine = s.env.sda)

/-! ## Each command on a quiet bus: it completes, and with what state -/

/-- INIT completes from every state that can accept a command, with the registers of R110 and the response
`(0, 0x00)`. -/
def Obligations.InitCompletes : Prop :=
  ∀ (d : Byte) (s : State), s.ready = true → s.quiet = true →
    exec (.init d) s = .next { s with blk := { s.blk with
      dirSda := true, dirScl := true, outSda := true, outScl := true
      sr := 0xFF#8, sdo := true, control := 0x2A#8
      fStart := false, fOvf := false, fStop := false, fColl := false, cnt := 0#4, xfer := false
      op := 0#3, arg := d, upc := .idle
      rspValid := true, rspAck := false, rspData := 0x00#8 } }

/-- INIT after INIT changes nothing: the second gives the state the first gave (R49, R110). -/
def Obligations.InitIsIdempotent : Prop :=
  ∀ (d : Byte) (s t : State), s.ready = true → s.quiet = true → exec (.init d) s = .next t →
    exec (.init d) t = .next t

/-- START on a quiet bus whose clock line can rise completes: clock held low, data released, `F_START` set
if the data line was high (R111). -/
def Obligations.StartCompletes : Prop :=
  ∀ (d : Byte) (s : State), s.atBoundary = true → s.quiet = true → s.env.scl = true →
    exec (.start d) s = .next { s with blk := { s.blk with
      outScl := false, fStart := s.blk.fStart || s.env.sda
      op := 1#3, arg := d, rspValid := true, rspAck := false, rspData := 0x00#8 } }

/-- STOP on a quiet bus whose clock line can rise completes: both lines released, `F_STOP` set if the data
line rises, and `F_START` if STOP was issued with the clock high (R112, corner case (b)). -/
def Obligations.StopCompletes : Prop :=
  ∀ (d : Byte) (s : State), s.atBoundary = true → s.quiet = true → s.env.scl = true →
    exec (.stop d) s = .next { s with blk := { s.blk with
      outScl := true
      fStart := s.blk.fStart || (s.blk.outScl && s.env.sda), fStop := s.blk.fStop || s.env.sda
      op := 2#3, arg := d, rspValid := true, rspAck := false, rspData := 0x00#8 } }

/-- WRITE on a quiet bus whose clock line can rise completes, with or without a START before it; the
acknowledge bit is the level the environment gives the data line, whatever the byte (R120, R158). -/
def Obligations.WriteCompletes : Prop :=
  ∀ (d : Byte) (s : State), s.atBoundary = true → s.quiet = true → s.env.scl = true →
    exec (.write d) s = .next { s with blk := { s.blk with
      outScl := false, cnt := 0#4, fStart := false, fOvf := true, fStop := false
      op := 3#3, arg := d, tret := .wFin, tw := 0xFE#8
      cap := if s.env.sda then 0xFF#8 else 0xFE#8
      rspValid := true, rspAck := !s.env.sda, rspData := 0x00#8 } }

/-- READ_ACK on a quiet bus, with the clock held low by the block, completes with the byte the data line
carries and captures the 0 of its own ACK (R121). -/
def Obligations.ReadAckCompletes : Prop :=
  ∀ (d : Byte) (s : State), s.atBoundary = true → s.quiet = true → s.env.scl = true →
    s.blk.outScl = false →
    exec (.readAck d) s = .next { s with blk := { s.blk with
      cnt := 0#4, fStart := false, fOvf := true, fStop := false
      op := 4#3, arg := d, tret := .aFin, tw := 0xFE#8, cap := 0x00#8
      rxb := if s.env.sda then 0xFF#8 else 0x00#8
      rspValid := true, rspAck := false, rspData := if s.env.sda then 0xFF#8 else 0x00#8 } }

/-- READ_NACK on a quiet bus, with the clock held low by the block, completes with the byte the data line
carries and leaves the data line released in the ninth pulse (R122). -/
def Obligations.ReadNackCompletes : Prop :=
  ∀ (d : Byte) (s : State), s.atBoundary = true → s.quiet = true → s.env.scl = true →
    s.blk.outScl = false →
    exec (.readNack d) s = .next { s with blk := { s.blk with
      cnt := 0#4, fStart := false, fOvf := true, fStop := false
      op := 5#3, arg := d, tret := .nFin, tw := 0xFE#8
      cap := if s.env.sda then 0xFF#8 else 0xFE#8
      rxb := if s.env.sda then 0xFF#8 else 0x00#8
      rspValid := true, rspAck := false, rspData := if s.env.sda then 0xFF#8 else 0x00#8 } }

/-- With the clock line held low by a quiet environment START hangs at S1 and STOP at P2, in the states R131
gives for those labels, with no response; the next step is the named fault (log 9). -/
def Obligations.FramingCommandsHangOnAStuckClock : Prop :=
  ∀ (d : Byte) (s : State), s.atBoundary = true → s.quiet = true → s.env.scl = false →
    (∃ t, exec (.start d) s = .next t ∧
      t = { s with blk := { s.blk with
        outScl := true, op := 1#3, arg := d, busy := true, rspValid := false, upc := .start .s1 } } ∧
      step t = .fault (.hang (.start .s1))) ∧
    (∃ t, exec (.stop d) s = .next t ∧
      t = { s with blk := { s.blk with
        outScl := true, outSda := false, op := 2#3, arg := d, busy := true, rspValid := false
        upc := .stop .p2 } } ∧
      step t = .fault (.hang (.stop .p2)))

/-- With the clock line held low by a quiet environment the byte commands hang at T3, in their first pulse, in
the state R131 gives for that label, with no response: WRITE with bit 7 of its byte on the data line, the
READs with the data line released; the next step is the named fault (log 9). Where the clock was released
before a READ, the block holds it low as well (R157). -/
def Obligations.ByteCommandsHangOnAStuckClock : Prop :=
  ∀ (d : Byte) (s : State), s.atBoundary = true → s.quiet = true → s.env.scl = false →
    (∃ t, exec (.write d) s = .next t ∧
      t = { s with blk := { s.blk with
        outScl := true, sr := d, sdo := d.getLsbD 7, cnt := 1#4
        fStart := false, fOvf := false, fStop := false, xfer := true
        op := 3#3, arg := d, busy := true, upc := .transfer .t3, tret := .w3, tw := 0xF0#8
        rspValid := false } } ∧
      step t = .fault (.hang (.transfer .t3))) ∧
    (∃ t, exec (.readAck d) s = .next t ∧
      t = { s with blk := { s.blk with
        dirSda := false, outScl := !s.blk.outScl, cnt := 1#4
        fStart := false, fOvf := false, fStop := false, xfer := true
        op := 4#3, arg := d, busy := true, upc := .transfer .t3, tret := .a2, tw := 0xF0#8
        rspValid := false } } ∧
      step t = .fault (.hang (.transfer .t3))) ∧
    (∃ t, exec (.readNack d) s = .next t ∧
      t = { s with blk := { s.blk with
        dirSda := false, outScl := !s.blk.outScl, cnt := 1#4
        fStart := false, fOvf := false, fStop := false, xfer := true
        op := 5#3, arg := d, busy := true, upc := .transfer .t3, tret := .n2, tw := 0xF0#8
        rspValid := false } } ∧
      step t = .fault (.hang (.transfer .t3)))

/-- INIT inside a transaction, on a quiet bus whose clock line can rise, releases the clock, makes no stop
condition and clears the flags (R162). -/
def Obligations.InitInsideATransactionMakesNoStop : Prop :=
  ∀ (d : Byte) (s t : State), s.atBoundary = true → s.quiet = true → s.env.scl = true →
    s.blk.outScl = false → exec (.init d) s = .next t →
    t.blk.outScl = true ∧ t.sclLine = true ∧ t.blk.fStop = false ∧ t.blk.fStart = false ∧
      t.blk.fOvf = false ∧ conditions (s.accepted (.init d)) (s.accepted (.init d)).trail = []

/-- START and then STOP, with no byte between, on an idle bus: the line states `11, 10, 00, 01, 00, 10, 11`,
the four delays, and the state before the START but for the two flags and what the responses and the
command latch hold (R113). -/
def Obligations.StartThenStopRestoresTheBlock : Prop :=
  ∀ (d d' : Byte) (s : State), s.atBoundary = true → s.quiet = true →
    s.env = { sda := true, scl := true } → s.blk.outScl = true →
    ∃ t, exec (.start d) s = .next t ∧
      exec (.stop d') t = .next { s with blk := { s.blk with
        fStart := true, fStop := true, op := 2#3, arg := d'
        rspValid := true, rspAck := false, rspData := 0x00#8 } } ∧
      s.lines = (true, true) ∧
      (s.accepted (.start d)).lineChanges (s.accepted (.start d)).trail =
        [(true, false), (false, false), (false, true)] ∧
      (t.accepted (.stop d')).lineChanges (t.accepted (.stop d')).trail =
        [(false, false), (true, false), (true, true)] ∧
      delaysOf (s.accepted (.start d)).trail = [.tHigh, .tLow] ∧
      delaysOf (t.accepted (.stop d')).trail = [.tHigh, .tLow]

/-! ## TRANSFER -/

/-- A TRANSFER entered with the clock held low, on a quiet bus whose clock line can rise, makes 8 pulses for
the word `0xF0` and 1 for `0xFE`, in `5 + 6n` micro-steps, and returns with the state of R97: the levels
of the data line shifted in, `SR` idle-high, the data line an output again (R95, R96, R97). -/
def Obligations.TransferMakesItsPulses : Prop :=
  ∀ (s : State) (n : Nat), s.rst = false → s.blk.busy = true → s.blk.upc = .transfer .t0 →
    s.blk.control = 0x2A#8 → s.blk.dirScl = true → s.blk.outScl = false → s.env.scl = true →
    ((s.blk.tw = 0xF0#8 ∧ n = 8) ∨ (s.blk.tw = 0xFE#8 ∧ n = 1)) →
    let level (bit : Level) : Level := s.env.sda && (!s.blk.dirSda || (s.blk.outSda && bit))
    s.runQuiet (5 + 6 * n) = { s with blk := { s.blk with
      sr := 0xFF#8, sdo := true, dirSda := true, cnt := 0#4
      fStart := false, fOvf := true, fStop := false, xfer := false
      cap :=
        if n = 8 then packByte ((bitsOf s.blk.sr).map level)
        else s.blk.sr.extractLsb' 0 7 ++ BitVec.ofBool (level (s.blk.sr.getLsbD 7))
      upc := s.blk.tret.toLabel } } ∧
    ((performed (s.trailQuiet (5 + 6 * n))).filter (· == .transfer .t1)).length = n

/-- A TRANSFER entered with `OUT.SCL = 1` never completes, whatever the environment does: T2 pulls the clock
low and T3 waits for a clock the block itself holds low (R98). -/
def Obligations.TransferEnteredWithTheClockReleasedHangs : Prop :=
  ∀ s : State, s.rst = false → s.blk.busy = true → s.blk.upc = .transfer .t0 →
    s.blk.dirScl = true → s.blk.outScl = true → s.noReset = true →
    s.run.blocked = true ∧ s.run.blk.upc = .transfer .t3 ∧ s.run.blk.outScl = false ∧
      s.run.blk.cnt = s.blk.tw.extractLsb' 0 4 + 1#4

/-- A READ issued at a command boundary with `OUT.SCL = 1` never completes, whatever the environment does:
the state it hangs in is that of R157, and no moves without a reset lead out of it. -/
def Obligations.ReadWithoutStartHangs : Prop :=
  ∀ (i : Instr) (d : Byte) (s : State), (i = .readAck d ∨ i = .readNack d) →
    s.atBoundary = true → s.blk.outScl = true → s.noReset = true →
    ∃ t, exec i s = .next t ∧ t.blocked = true ∧ t.blk.upc = .transfer .t3 ∧ t.blk.outScl = false ∧
      t.blk.dirSda = false ∧ t.blk.cnt = 1#4 ∧ t.blk.xfer = true ∧ t.blk.rspValid = false ∧
      ∀ ms : List Move, .assertReset ∉ ms →
        (State.runAgenda ms { t with agenda := ms }).blk.upc = .transfer .t3 ∧
        (State.runAgenda ms { t with agenda := ms }).blocked = true

/-! ## Every command on every bus -/

/-- Termination (R167): a command issued where it may be, and that the block can finish on its own lines,
completes on every bus that lets the clock line go in the end (ENV3 over the finite agenda), in a number
of sequencer micro-steps that depends on nothing but the command: 2, 8, 7, 70, 69, 69. The agenda and what follows its end are the model's
(log 2). -/
def Obligations.CommandsTerminate : Prop :=
  ∀ (i : Instr) (s : State), s.inv = true → s.ready = true →
    (i.opcode = 0#3 ∨ s.blk.control = 0x2A#8) →
    (i.opcode = 4#3 ∨ i.opcode = 5#3 → s.blk.outScl = false) →
    s.noReset = true → (s.accepted i).env3 = true →
    ∃ t, exec i s = .next t ∧ t.completed = true ∧
      (performed (s.accepted i).trail).length =
        match i with
        | .init _ => 2
        | .start _ => 8
        | .stop _ => 7
        | .write _ => 70
        | .readAck _ => 69
        | .readNack _ => 69

/-- A command that a bus without reset leaves unfinished is blocked at S1, P2 or T3 on a clock line that
reads low, with no response and no move left, in the state R131 gives for the label: at T3 `CNT` is odd
relative to its preset and `SDO` drives the data line where it is an output; a step from there is the
hang of that label (log 9). -/
def Obligations.UnfinishedCommandsAreBlockedAtAWait : Prop :=
  ∀ (i : Instr) (s t : State), s.inv = true → s.ready = true → s.noReset = true →
    exec i s = .next t → t.blk.busy = true →
    t.blocked = true ∧ t.sclLine = false ∧ t.blk.rspValid = false ∧ t.agenda = [] ∧
      step t = .fault (.hang t.blk.upc) ∧
      ((t.blk.upc = .start .s1 ∧ t.blk.outScl = true ∧ t.blk.outSda = true) ∨
        (t.blk.upc = .stop .p2 ∧ t.blk.outScl = true ∧ t.blk.outSda = false) ∨
        (t.blk.upc = .transfer .t3 ∧ t.blk.xfer = true ∧
          (t.blk.cnt - t.blk.tw.extractLsb' 0 4).getLsbD 0 = true ∧
          t.blk.mSda = (!t.blk.dirSda || t.blk.sdo) ∧
          (t.blk.outScl = true ∨ ((i.opcode = 4#3 ∨ i.opcode = 5#3) ∧ t.blk.cnt = 1#4))))

/-- Two completed runs of the same kind of command perform the same micro-steps, label by label, whatever
the operand, the acknowledge bit and the bus (R132, R167). -/
def Obligations.MicroStepsDependOnTheCommandAlone : Prop :=
  ∀ (i j : Instr) (s t s' t' : State), i.opcode = j.opcode →
    s.inv = true → s.ready = true → s.noReset = true → exec i s = .next t → t.completed = true →
    s'.inv = true → s'.ready = true → s'.noReset = true →
    exec j s' = .next t' → t'.completed = true →
    performed (s.accepted i).trail = performed (s'.accepted j).trail

/-- A WRITE that completes on a bus that meets ENV1 makes nine clock pulses; before the eight rising edges of
the byte the block puts the operand's bits on the data line, most significant first, and before the ninth
it releases it; the response is the acknowledge bit sampled there, 1 for a low line (R47, R97, R99,
R120). -/
def Obligations.WriteSendsItsBitsAndReturnsTheAcknowledge : Prop :=
  ∀ (d : Byte) (s t : State), s.inv = true → s.ready = true → s.blk.control = 0x2A#8 →
    s.noReset = true → (s.accepted (.write d)).env1 = true →
    exec (.write d) s = .next t → t.completed = true →
    ∃ (xs : List Sample) (ack : Sample),
      risingSamples (s.accepted (.write d)) (s.accepted (.write d)).trail = xs ++ [ack] ∧
      xs.map Sample.driven = bitsOf d ∧ ack.driven = true ∧
      (∀ x ∈ xs ++ [ack], x.level = (x.driven && x.env)) ∧
      t.blk.rspAck = !ack.level ∧ t.blk.rspData = 0x00#8 ∧
      t.blk.cap = 0x7F#7 ++ BitVec.ofBool ack.level

/-- A READ that completes on a bus that meets ENV1 makes nine clock pulses; the block releases the data line
for the first eight, whose levels, first in bit 7, are the byte it returns; in the ninth READ_ACK pulls
the data line low and READ_NACK releases it (R47, R97, R121, R122). -/
def Obligations.ReadsReturnTheSampledByteAndAnswer : Prop :=
  ∀ (i : Instr) (d : Byte) (s t : State), (i = .readAck d ∨ i = .readNack d) →
    s.inv = true → s.ready = true → s.blk.control = 0x2A#8 →
    s.noReset = true → (s.accepted i).env1 = true → exec i s = .next t → t.completed = true →
    ∃ (xs : List Sample) (ack : Sample),
      risingSamples (s.accepted i) (s.accepted i).trail = xs ++ [ack] ∧ xs.length = 8 ∧
      (∀ x ∈ xs, x.driven = true) ∧ (∀ x ∈ xs ++ [ack], x.level = (x.driven && x.env)) ∧
      ack.driven = (i == .readNack d) ∧
      t.blk.rxb = packByte (xs.map Sample.level) ∧ t.blk.rspData = t.blk.rxb ∧
      t.blk.rspAck = false

/-- The block and a conforming slave understand each other: on a bus that meets ENV1, ENV2 and ENV4, with the
clock line held low by the block or high when the command is issued, the levels a slave samples at the
rising edges of a completed WRITE are the byte it sends, most significant bit first, and the response says
whether the slave accepts it; a completed READ returns the byte the slave sends (R46, R47, R99, R120, R121,
R122). Which role the slave has is the statement's to say (log 21). -/
def Obligations.ConformingSlavesAreUnderstood : Prop :=
  ∀ s : State, s.inv = true → s.ready = true → s.blk.control = 0x2A#8 → s.noReset = true →
    (s.blk.outScl = false ∨ s.env.scl = true) →
    (∀ (d : Byte) (accepts : Bool) (t : State),
      (s.accepted (.write d)).env1 = true → (s.accepted (.write d)).env2 = true →
      (s.accepted (.write d)).env4 (.receives accepts) = true →
      exec (.write d) s = .next t → t.completed = true →
      t.blk.rspAck = accepts ∧
        (risingSamples (s.accepted (.write d)) (s.accepted (.write d)).trail).map Sample.level =
          bitsOf d ++ [!accepts]) ∧
    (∀ (i : Instr) (d byte : Byte) (t : State), (i = .readAck d ∨ i = .readNack d) →
      (s.accepted i).env1 = true → (s.accepted i).env2 = true →
      (s.accepted i).env4 (.transmits byte) = true →
      exec i s = .next t → t.completed = true →
      t.blk.rspData = byte ∧ t.blk.rxb = byte ∧
        (risingSamples (s.accepted i) (s.accepted i).trail).map Sample.level =
          bitsOf byte ++ [i == .readNack d])

/-- The wire form of a byte (R123): on a bus that meets ENV1 and ENV2 a completed byte command makes nine
falling edges of the clock line, after one more that pulls a clock left high down before the first pulse,
and the data line never changes while the clock line reads high. -/
def Obligations.ByteCommandsKeepTheWireForm : Prop :=
  ∀ (i : Instr) (s t : State), (i.opcode = 3#3 ∨ i.opcode = 4#3 ∨ i.opcode = 5#3) →
    s.inv = true → s.ready = true → s.noReset = true →
    (s.accepted i).env1 = true → (s.accepted i).env2 = true →
    exec i s = .next t → t.completed = true →
    (s.blk.outScl = false → fallingEdges (s.accepted i) (s.accepted i).trail = 9) ∧
      (s.blk.outScl = true → s.env.scl = true →
        fallingEdges (s.accepted i) (s.accepted i).trail = 10) ∧
      conditions (s.accepted i) (s.accepted i).trail = []

/-- On a bus that meets ENV2 and without reset, every start or stop condition seen during a command is of the
block's own making: none during INIT and the byte commands, a start at S3 in START, a start at P0 (where
the clock was not held low) or a stop at P4 in STOP (R111, R112, R123, R162). -/
def Obligations.ConditionsAreTheFramingCommandsOwn : Prop :=
  ∀ (i : Instr) (s : State), s.inv = true → s.ready = true →
    (i.opcode = 0#3 ∨ s.blk.control = 0x2A#8) → s.noReset = true → (s.accepted i).env2 = true →
    ∀ e ∈ conditions (s.accepted i) (s.accepted i).trail,
      (i.opcode = 1#3 ∧ e.label = some (.start .s3) ∧ e.after.sdaLine = false) ∨
      (i.opcode = 2#3 ∧ e.label = some (.stop .p0) ∧ e.after.sdaLine = false ∧ s.blk.outScl = true) ∨
      (i.opcode = 2#3 ∧ e.label = some (.stop .p4) ∧ e.after.sdaLine = true)

/-- The least time of a completed command, from the delays it performed: none for INIT, `L + H` for START and
STOP, `11L + 9H` for a byte, on every bus and for every choice of the two constants (R123, R160). -/
def Obligations.CompletedCommandsTakeTheirLeastTime : Prop :=
  ∀ (p : Params) (i : Instr) (s t : State), s.inv = true → s.ready = true → s.noReset = true →
    exec i s = .next t → t.completed = true →
    leastTime p (s.accepted i).trail =
      match i with
      | .init _ => 0
      | .start _ => p.tLow + p.tHigh
      | .stop _ => p.tLow + p.tHigh
      | .write _ => 11 * p.tLow + 9 * p.tHigh
      | .readAck _ => 11 * p.tLow + 9 * p.tHigh
      | .readNack _ => 11 * p.tLow + 9 * p.tHigh

/-- Sessions of the grammar complete (R152, R153, R166, R167): on an idle bus (log 4), from reset, every script
`INIT { START { byte | RESTART } STOP }`, presented by the host (log 3), runs command by command to a final
state, with both lines released by the block. -/
def Obligations.SessionsOfTheGrammarComplete : Prop :=
  ∀ is : List Instr, sessionWf is = true →
    ∃ t : State, Host.Core.run Sys2Proof.core is.length { State.reset with script := is.map encode } = .next t ∧
      t.final false = true ∧ t.blk.outScl = true ∧ t.blk.outSda = true ∧ t.lines = (true, true)

/-- What a run shows (R166). The events of a run of `n` steps end in the state the run ends in, but for the
model's agenda, where a planned move that was not enabled leaves no event (log 2). A step that
accepts a word begins with the acceptance, which moves no line (R81), and shows the response of the command
if that completes and none if it does not, whatever the bus does. A step that accepts none shows no
response but that of a command whose FIN it takes. A session of the grammar on an idle bus (logs 3, 4)
shows one response for each command, in script order, with nobody there to acknowledge or to send. -/
def Obligations.RunsShowTheirResponsesInOrder : Prop :=
  (∀ (n : Nat) (s t : State), Host.Core.run Sys2Proof.core n s = .next t →
    { lastState s (s.runTrail n) with agenda := t.agenda } = t ∧ (s.shows n).last = t.blk ∧
      (s.shows n).lines = (s.runTrail n).map fun e => e.after.lines) ∧
  (∀ (s t u : State) (w : CmdWord) (i : Instr), s.fetch = some (w, u) → decode w = some i →
    step s = .next t →
    s.stepTrail = ⟨none, u.accepted i⟩ :: (u.accepted i).trail ∧ (u.accepted i).lines = s.lines ∧
      responses s.stepTrail = if t.completed then [(t.blk.rspAck, t.blk.rspData)] else []) ∧
  (∀ s t : State, s.fetch = none → step s = .next t →
    responses s.stepTrail =
      if s.blk.busy && t.completed then [(t.blk.rspAck, t.blk.rspData)] else []) ∧
  (∀ is : List Instr, sessionWf is = true →
    (State.shows is.length { State.reset with script := is.map encode }).responses =
      is.map fun i =>
        match i with
        | .init _ => (false, 0x00#8)
        | .start _ => (false, 0x00#8)
        | .stop _ => (false, 0x00#8)
        | .write _ => (false, 0x00#8)
        | .readAck _ => (false, 0xFF#8)
        | .readNack _ => (false, 0xFF#8))

/-- A run is made of steps (R6, R166). Every event of a run, which is what its line pairs are read off, is
either the acceptance of the next word of the script by a ready block, by INIT or with `CONTROL = 0x2A`
(R62, R63), or a move that is enabled in the state the events before it lead to: a micro-step whose condition
holds (R80, R90), a change of a line or a read of a valid response while reset is released (R45, R165),
reset or its release (R150). A move that is not enabled changes nothing; while reset is asserted its release
alone is enabled. That waiting is no step, and that reading and the release of reset are steps, is the
model's choice (log 26). -/
def Obligations.RunsAreMadeOfEnabledSteps : Prop :=
  (∀ (n : Nat) (s : State) (es fs : List Event) (e : Event), s.runTrail n = es ++ e :: fs →
    (∃ (w : CmdWord) (i : Instr) (ws : List CmdWord) (a : List Move),
      (lastState s es).ready = true ∧ (lastState s es).script = w :: ws ∧ decode w = some i ∧
        (i.opcode = 0#3 ∨ (lastState s es).blk.control = 0x2A#8) ∧
        e = ⟨none, { lastState s es with script := ws, agenda := a }.accepted i⟩) ∨
    (∃ (m : Move) (a : List Move), (lastState s es).enabled m = true ∧
      e = ⟨(lastState s es).performs m, { lastState s es with agenda := a }.move m⟩)) ∧
  (∀ (s : State) (m : Move),
    (s.enabled m = false → s.move m = s) ∧
    (s.inv = true → s.rst = true → (s.enabled m = true ↔ m = .releaseReset)) ∧
    (s.blk.busy = true → s.rst = false →
      (s.enabled .sequencer = true ↔ (s.blk.seqStep s.env).isSome = true)) ∧
    s.enabled .host = false ∧ s.enabled .wait = false ∧
    (∀ l, s.enabled (.environment l) = true ↔ s.rst = false) ∧
    (s.rst = false → (s.enabled .readResponse = true ↔ s.blk.response.isSome = true)) ∧
    (s.rst = false → s.enabled .assertReset = true ∧ s.enabled .releaseReset = false))

/-! ## Frames -/

/-- What INIT leaves unchanged, on every bus without reset: `TRET`, `TW`, `CAP`, `RXB`, the script, and the
environment's lines where no move of the environment is planned (R110). -/
def Obligations.FrameOfInit : Prop :=
  ∀ (d : Byte) (s t : State), s.inv = true → s.noReset = true → exec (.init d) s = .next t →
    t.blk.tret = s.blk.tret ∧ t.blk.tw = s.blk.tw ∧ t.blk.cap = s.blk.cap ∧ t.blk.rxb = s.blk.rxb ∧
      t.script = s.script ∧ t.rst = s.rst ∧ (s.noEnvironment = true → t.env = s.env)

/-- What START and STOP leave unchanged, on every bus without reset, completed or not: all but the command
latch, `BUSY`, `UPC`, the two output latches, the response, and `F_START` and `F_STOP`; on a bus that
meets ENV2 START leaves `F_STOP`, and STOP leaves `F_START` if the clock was held low (R14, R83, R111,
R112). -/
def Obligations.FrameOfStartAndStop : Prop :=
  ∀ (i : Instr) (s t : State), (i.opcode = 1#3 ∨ i.opcode = 2#3) →
    s.inv = true → s.ready = true → s.noReset = true → exec i s = .next t →
    t.blk.dirSda = s.blk.dirSda ∧ t.blk.dirScl = s.blk.dirScl ∧ t.blk.sr = s.blk.sr ∧
      t.blk.sdo = s.blk.sdo ∧ t.blk.cnt = s.blk.cnt ∧ t.blk.fOvf = s.blk.fOvf ∧
      t.blk.fColl = s.blk.fColl ∧ t.blk.control = s.blk.control ∧ t.blk.xfer = s.blk.xfer ∧
      t.blk.tret = s.blk.tret ∧ t.blk.tw = s.blk.tw ∧ t.blk.cap = s.blk.cap ∧ t.blk.rxb = s.blk.rxb ∧
      t.script = s.script ∧ t.rst = s.rst ∧ (s.noEnvironment = true → t.env = s.env) ∧
      ((s.accepted i).env2 = true → i.opcode = 1#3 → t.blk.fStop = s.blk.fStop) ∧
      ((s.accepted i).env2 = true → i.opcode = 2#3 → s.blk.outScl = false →
        t.blk.fStart = s.blk.fStart)

/-- What the byte commands leave unchanged, on every bus without reset: completed or not `DIR.SCL`,
`OUT.SDA`, `F_COLL`, `CONTROL`, and WRITE `RXB`; completed also `DIR.SDA`, `SR`, `SDO`, `XFER`, with
`OUT.SCL = 0` (R120, R121, R122). -/
def Obligations.FrameOfByteCommands : Prop :=
  ∀ (i : Instr) (s t : State), (i.opcode = 3#3 ∨ i.opcode = 4#3 ∨ i.opcode = 5#3) →
    s.inv = true → s.ready = true → s.noReset = true → exec i s = .next t →
    t.blk.dirScl = s.blk.dirScl ∧ t.blk.outSda = s.blk.outSda ∧ t.blk.fColl = s.blk.fColl ∧
      t.blk.control = s.blk.control ∧ (i.opcode = 3#3 → t.blk.rxb = s.blk.rxb) ∧
      t.script = s.script ∧ t.rst = s.rst ∧ (s.noEnvironment = true → t.env = s.env) ∧
      (t.completed = true →
        t.blk.dirSda = s.blk.dirSda ∧ t.blk.sr = s.blk.sr ∧ t.blk.sdo = s.blk.sdo ∧
          t.blk.xfer = s.blk.xfer ∧ t.blk.upc = s.blk.upc ∧ t.blk.outScl = false)

/-! ## The other agents -/

/-- Reset, asserted in any state, is one step to the reset values with no command in progress; asserted during
a command it abandons it there, whatever label it was at, unless it completes
before the reset's turn, which is then still planned; the environment's lines stay (R29, R150, R151), and
so does the rest of the script, the model's choice (log 25). -/
def Obligations.ResetAbandonsTheCommand : Prop :=
  (∀ (s : State) (ms : List Move), s.agenda = .assertReset :: ms →
    step s = .next { s with blk := Block.reset, rst := true, agenda := ms }) ∧
  (∀ (i : Instr) (s t : State), s.ready = true → exec i s = .next t → t.rst = true →
    t.blk = Block.reset ∧ t.script = s.script) ∧
  (∀ (i : Instr) (s : State) (n : Nat) (ms : List Move), s.ready = true →
    (i.opcode = 0#3 ∨ s.blk.control = 0x2A#8) →
    s.agenda = List.replicate n Move.sequencer ++ Move.assertReset :: ms →
    ∀ t, exec i s = .next t →
      (t.rst = true ∧ t.blk = Block.reset ∧ t.env = s.env ∧ t.agenda = ms) ∨
        (t.completed = true ∧ t.rst = false ∧
          ∃ k : Nat, t.agenda = List.replicate k Move.sequencer ++ Move.assertReset :: ms))

/-- While reset is asserted no step but its release is enabled: no command is accepted, no other move changes
the machine, and the release changes nothing but the input (R150). That the input is a held level under which
the environment does not move either is the model's reading (log 13). -/
def Obligations.AssertedResetHoldsTheMachine : Prop :=
  ∀ s : State, s.rst = true →
    (∀ i : Instr, exec i s = .next s) ∧ s.fetch = none ∧ (s.agenda = [] → step s = .next s) ∧
    (∀ m ms, s.agenda = m :: ms → m ≠ .assertReset → m ≠ .releaseReset →
      step s = .next { s with agenda := ms }) ∧
    (∀ ms, s.agenda = .releaseReset :: ms → step s = .next { s with rst := false, agenda := ms })

/-- At a command boundary a step of the environment on the data line can only set `F_START` or `F_STOP`, the
first if the line falls and the second if it rises while the clock line reads high, and one on the clock
line changes nothing in the block (R84, R166). -/
def Obligations.EnvironmentAtABoundarySetsFlagsOnly : Prop :=
  ∀ s : State, s.inv = true → s.rst = false → s.blk.busy = false → s.blk.control = 0x2A#8 →
    (s.move (.environment .scl)).blk = s.blk ∧
    (s.move (.environment .sda)).blk = { s.blk with
      fStart := s.blk.fStart || (s.sclLine && s.env.sda)
      fStop := s.blk.fStop || (s.sclLine && !s.env.sda) }

/-- The response stays until the next acceptance: no step that accepts no word, and is no reset, changes it
at a command boundary, and reading it changes nothing (R66, R165). -/
def Obligations.TheResponseStaysUntilTheNextCommand : Prop :=
  ∀ s t : State, s.blk.busy = false → s.fetch = none → s.agenda.head? ≠ some .assertReset →
    step s = .next t → t.blk.response = s.blk.response ∧ s.move .readResponse = s

/-- Nothing the host does between acceptance and response changes the command in progress: the run is the
same, block and lines, with the host's moves taken out of the agenda (R62, R155). -/
def Obligations.HostMovesDoNotDisturbACommand : Prop :=
  ∀ (i : Instr) (s t : State), exec i s = .next t →
    exec i { s with agenda := s.agenda.filter fun m => m != .host && m != .readResponse && m != .wait } =
      .next { t with agenda := t.agenda.filter fun m => m != .host && m != .readResponse && m != .wait }
end

