-- ==== Sys2Proof/Laws/Decode.lean ====
section
/-! SUPPORT. A command word is its opcode field followed by its operand field; the decoder and the encoder
said over that form (R60, R61, R64). -/

namespace Sys2Proof

@[simp] theorem operandField_append (o : Opcode) (d : Byte) : operandField (o ++ d) = d := by
  apply BitVec.eq_of_getLsbD_eq
  intro k hk
  rw [operandField, BitVec.getLsbD_extractLsb', BitVec.getLsbD_append]
  simp [hk]

@[simp] theorem opcodeField_append (o : Opcode) (d : Byte) : opcodeField (o ++ d) = o := by
  apply BitVec.eq_of_getLsbD_eq
  intro k hk
  rw [opcodeField, BitVec.getLsbD_extractLsb', BitVec.getLsbD_append]
  simp [hk]

/-- Every word is its two fields (R60). -/
theorem word_eq_append (w : CmdWord) : w = opcodeField w ++ operandField w := by
  apply BitVec.eq_of_getLsbD_eq
  intro k hk
  rw [BitVec.getLsbD_append, opcodeField, operandField, BitVec.getLsbD_extractLsb',
    BitVec.getLsbD_extractLsb']
  by_cases h : k < 8
  · simp [h]
  · have h1 : k - 8 < 3 := by omega
    have h2 : 8 + (k - 8) = k := by omega
    simp [h, h1, h2]

/-- The mask of R61 keeps the opcode field and clears the operand. -/
theorem append_and_opcodeMask (o : Opcode) (d : Byte) : (o ++ d) &&& opcodeMask = o ++ 0#8 := by
  have hm : opcodeMask = 7#3 ++ 0#8 := by decide
  have ho : o &&& 7#3 = o := by revert o; decide
  rw [hm, BitVec.and_append, ho, BitVec.and_zero]

/-- The decoder by the value of the opcode field (R61, R63). -/
theorem decode_append (o : Opcode) (d : Byte) :
    decode (o ++ d) =
      if o = 0#3 then some (.init d) else if o = 1#3 then some (.start d)
      else if o = 2#3 then some (.stop d) else if o = 3#3 then some (.write d)
      else if o = 4#3 then some (.readAck d) else if o = 5#3 then some (.readNack d) else none := by
  have ho : ∀ o : Opcode, o = 0#3 ∨ o = 1#3 ∨ o = 2#3 ∨ o = 3#3 ∨ o = 4#3 ∨ o = 5#3 ∨ o = 6#3 ∨ o = 7#3 := by
    decide
  simp only [decode, selectsRow, append_and_opcodeMask, operandField_append]
  rcases ho o with rfl | rfl | rfl | rfl | rfl | rfl | rfl | rfl <;> rfl

/-- The encoder lays the two fields out (R60, R61). -/
theorem encode_eq_append (i : Instr) : encode i = i.opcode ++ i.operand := by
  have h (o : Opcode) (d : Byte) : (o ++ 0#8) ||| d.setWidth 11 = o ++ d := by
    have hd : d.setWidth 11 = 0#3 ++ d := by
      apply BitVec.eq_of_getLsbD_eq
      intro k hk
      rw [BitVec.getLsbD_append, BitVec.getLsbD_setWidth]
      by_cases h8 : k < 8
      · simp [h8, hk]
      · simp [h8, BitVec.getLsbD_of_ge d k (by omega)]
    rw [hd, BitVec.or_append, BitVec.or_zero, BitVec.zero_or]
  cases i with
  | init d => exact h 0#3 d
  | start d => exact h 1#3 d
  | stop d => exact h 2#3 d
  | write d => exact h 3#3 d
  | readAck d => exact h 4#3 d
  | readNack d => exact h 5#3 d

end Sys2Proof
end

