-- ==== Sys2Proof/Laws/State.lean ====
section
/-! SUPPORT. What each update of the state does to each field, true by `rfl`, so that no later proof
unfolds a record update. A lemma that lists all the fields of an update is used by `simp` as one
rewriting rule per field. -/

namespace Sys2Proof.Machine

/-- The fields after `UPC <- l`. -/
@[simp] theorem Block.goto_fields (l : Label) (b : Block) :
    (b.goto l).dirSda = b.dirSda ∧
      (b.goto l).dirScl = b.dirScl ∧
      (b.goto l).outSda = b.outSda ∧
      (b.goto l).outScl = b.outScl ∧
      (b.goto l).sr = b.sr ∧
      (b.goto l).sdo = b.sdo ∧
      (b.goto l).cnt = b.cnt ∧
      (b.goto l).fStart = b.fStart ∧
      (b.goto l).fOvf = b.fOvf ∧
      (b.goto l).fStop = b.fStop ∧
      (b.goto l).fColl = b.fColl ∧
      (b.goto l).control = b.control ∧
      (b.goto l).xfer = b.xfer ∧
      (b.goto l).busy = b.busy ∧
      (b.goto l).op = b.op ∧
      (b.goto l).arg = b.arg ∧
      (b.goto l).upc = l ∧
      (b.goto l).tret = b.tret ∧
      (b.goto l).tw = b.tw ∧
      (b.goto l).cap = b.cap ∧
      (b.goto l).rxb = b.rxb ∧
      (b.goto l).rspValid = b.rspValid ∧
      (b.goto l).rspAck = b.rspAck ∧
      (b.goto l).rspData = b.rspData :=
  ⟨rfl, rfl, rfl, rfl, rfl, rfl, rfl, rfl, rfl, rfl, rfl, rfl, rfl, rfl, rfl, rfl, rfl, rfl, rfl, rfl, rfl, rfl, rfl, rfl⟩

/-- The fields after `SET_DIR(SDA, v)` (R86). -/
@[simp] theorem Block.setDirSda_fields (v : Level) (b : Block) :
    (b.setDirSda v).dirSda = v ∧
      (b.setDirSda v).dirScl = b.dirScl ∧
      (b.setDirSda v).outSda = b.outSda ∧
      (b.setDirSda v).outScl = b.outScl ∧
      (b.setDirSda v).sr = b.sr ∧
      (b.setDirSda v).sdo = b.sdo ∧
      (b.setDirSda v).cnt = b.cnt ∧
      (b.setDirSda v).fStart = b.fStart ∧
      (b.setDirSda v).fOvf = b.fOvf ∧
      (b.setDirSda v).fStop = b.fStop ∧
      (b.setDirSda v).fColl = b.fColl ∧
      (b.setDirSda v).control = b.control ∧
      (b.setDirSda v).xfer = b.xfer ∧
      (b.setDirSda v).busy = b.busy ∧
      (b.setDirSda v).op = b.op ∧
      (b.setDirSda v).arg = b.arg ∧
      (b.setDirSda v).upc = b.upc ∧
      (b.setDirSda v).tret = b.tret ∧
      (b.setDirSda v).tw = b.tw ∧
      (b.setDirSda v).cap = b.cap ∧
      (b.setDirSda v).rxb = b.rxb ∧
      (b.setDirSda v).rspValid = b.rspValid ∧
      (b.setDirSda v).rspAck = b.rspAck ∧
      (b.setDirSda v).rspData = b.rspData :=
  ⟨rfl, rfl, rfl, rfl, rfl, rfl, rfl, rfl, rfl, rfl, rfl, rfl, rfl, rfl, rfl, rfl, rfl, rfl, rfl, rfl, rfl, rfl, rfl, rfl⟩

/-- The fields after `LOAD_SR(v)` (R87). -/
@[simp] theorem Block.loadSr_fields (v : Byte) (b : Block) :
    (b.loadSr v).dirSda = b.dirSda ∧
      (b.loadSr v).dirScl = b.dirScl ∧
      (b.loadSr v).outSda = b.outSda ∧
      (b.loadSr v).outScl = b.outScl ∧
      (b.loadSr v).sr = v ∧
      (b.loadSr v).sdo = b.sdo ∧
      (b.loadSr v).cnt = b.cnt ∧
      (b.loadSr v).fStart = b.fStart ∧
      (b.loadSr v).fOvf = b.fOvf ∧
      (b.loadSr v).fStop = b.fStop ∧
      (b.loadSr v).fColl = b.fColl ∧
      (b.loadSr v).control = b.control ∧
      (b.loadSr v).xfer = b.xfer ∧
      (b.loadSr v).busy = b.busy ∧
      (b.loadSr v).op = b.op ∧
      (b.loadSr v).arg = b.arg ∧
      (b.loadSr v).upc = b.upc ∧
      (b.loadSr v).tret = b.tret ∧
      (b.loadSr v).tw = b.tw ∧
      (b.loadSr v).cap = b.cap ∧
      (b.loadSr v).rxb = b.rxb ∧
      (b.loadSr v).rspValid = b.rspValid ∧
      (b.loadSr v).rspAck = b.rspAck ∧
      (b.loadSr v).rspData = b.rspData :=
  ⟨rfl, rfl, rfl, rfl, rfl, rfl, rfl, rfl, rfl, rfl, rfl, rfl, rfl, rfl, rfl, rfl, rfl, rfl, rfl, rfl, rfl, rfl, rfl, rfl⟩

/-- The fields after `RXB <- CAP; LOAD_SR(v)` (R121, R122). -/
@[simp] theorem Block.saveAndLoad_fields (v : Byte) (b : Block) :
    (b.saveAndLoad v).dirSda = b.dirSda ∧
      (b.saveAndLoad v).dirScl = b.dirScl ∧
      (b.saveAndLoad v).outSda = b.outSda ∧
      (b.saveAndLoad v).outScl = b.outScl ∧
      (b.saveAndLoad v).sr = v ∧
      (b.saveAndLoad v).sdo = b.sdo ∧
      (b.saveAndLoad v).cnt = b.cnt ∧
      (b.saveAndLoad v).fStart = b.fStart ∧
      (b.saveAndLoad v).fOvf = b.fOvf ∧
      (b.saveAndLoad v).fStop = b.fStop ∧
      (b.saveAndLoad v).fColl = b.fColl ∧
      (b.saveAndLoad v).control = b.control ∧
      (b.saveAndLoad v).xfer = b.xfer ∧
      (b.saveAndLoad v).busy = b.busy ∧
      (b.saveAndLoad v).op = b.op ∧
      (b.saveAndLoad v).arg = b.arg ∧
      (b.saveAndLoad v).upc = b.upc ∧
      (b.saveAndLoad v).tret = b.tret ∧
      (b.saveAndLoad v).tw = b.tw ∧
      (b.saveAndLoad v).cap = b.cap ∧
      (b.saveAndLoad v).rxb = b.cap ∧
      (b.saveAndLoad v).rspValid = b.rspValid ∧
      (b.saveAndLoad v).rspAck = b.rspAck ∧
      (b.saveAndLoad v).rspData = b.rspData :=
  ⟨rfl, rfl, rfl, rfl, rfl, rfl, rfl, rfl, rfl, rfl, rfl, rfl, rfl, rfl, rfl, rfl, rfl, rfl, rfl, rfl, rfl, rfl, rfl, rfl⟩

/-- The fields after `WRITE_STATUS(w)` (R88). -/
@[simp] theorem Block.writeStatus_fields (w : Byte) (b : Block) :
    (b.writeStatus w).dirSda = b.dirSda ∧
      (b.writeStatus w).dirScl = b.dirScl ∧
      (b.writeStatus w).outSda = b.outSda ∧
      (b.writeStatus w).outScl = b.outScl ∧
      (b.writeStatus w).sr = b.sr ∧
      (b.writeStatus w).sdo = b.sdo ∧
      (b.writeStatus w).cnt = w.extractLsb' 0 4 ∧
      (b.writeStatus w).fStart = (b.fStart && !w.getLsbD 7) ∧
      (b.writeStatus w).fOvf = (b.fOvf && !w.getLsbD 6) ∧
      (b.writeStatus w).fStop = (b.fStop && !w.getLsbD 5) ∧
      (b.writeStatus w).fColl = b.fColl ∧
      (b.writeStatus w).control = b.control ∧
      (b.writeStatus w).xfer = b.xfer ∧
      (b.writeStatus w).busy = b.busy ∧
      (b.writeStatus w).op = b.op ∧
      (b.writeStatus w).arg = b.arg ∧
      (b.writeStatus w).upc = b.upc ∧
      (b.writeStatus w).tret = b.tret ∧
      (b.writeStatus w).tw = b.tw ∧
      (b.writeStatus w).cap = b.cap ∧
      (b.writeStatus w).rxb = b.rxb ∧
      (b.writeStatus w).rspValid = b.rspValid ∧
      (b.writeStatus w).rspAck = b.rspAck ∧
      (b.writeStatus w).rspData = b.rspData :=
  ⟨rfl, rfl, rfl, rfl, rfl, rfl, rfl, rfl, rfl, rfl, rfl, rfl, rfl, rfl, rfl, rfl, rfl, rfl, rfl, rfl, rfl, rfl, rfl, rfl⟩

/-- The fields after `WRITE_STATUS(TW); XFER <- 1` (R95). -/
@[simp] theorem Block.beginTransfer_fields (b : Block) :
    (b.beginTransfer).dirSda = b.dirSda ∧
      (b.beginTransfer).dirScl = b.dirScl ∧
      (b.beginTransfer).outSda = b.outSda ∧
      (b.beginTransfer).outScl = b.outScl ∧
      (b.beginTransfer).sr = b.sr ∧
      (b.beginTransfer).sdo = b.sdo ∧
      (b.beginTransfer).cnt = b.tw.extractLsb' 0 4 ∧
      (b.beginTransfer).fStart = (b.fStart && !b.tw.getLsbD 7) ∧
      (b.beginTransfer).fOvf = (b.fOvf && !b.tw.getLsbD 6) ∧
      (b.beginTransfer).fStop = (b.fStop && !b.tw.getLsbD 5) ∧
      (b.beginTransfer).fColl = b.fColl ∧
      (b.beginTransfer).control = b.control ∧
      (b.beginTransfer).xfer = true ∧
      (b.beginTransfer).busy = b.busy ∧
      (b.beginTransfer).op = b.op ∧
      (b.beginTransfer).arg = b.arg ∧
      (b.beginTransfer).upc = b.upc ∧
      (b.beginTransfer).tret = b.tret ∧
      (b.beginTransfer).tw = b.tw ∧
      (b.beginTransfer).cap = b.cap ∧
      (b.beginTransfer).rxb = b.rxb ∧
      (b.beginTransfer).rspValid = b.rspValid ∧
      (b.beginTransfer).rspAck = b.rspAck ∧
      (b.beginTransfer).rspData = b.rspData :=
  ⟨rfl, rfl, rfl, rfl, rfl, rfl, rfl, rfl, rfl, rfl, rfl, rfl, rfl, rfl, rfl, rfl, rfl, rfl, rfl, rfl, rfl, rfl, rfl, rfl⟩

/-- The fields after the counter's part of a strobe (R89). -/
@[simp] theorem Block.countEdge_fields (b : Block) :
    (b.countEdge).dirSda = b.dirSda ∧
      (b.countEdge).dirScl = b.dirScl ∧
      (b.countEdge).outSda = b.outSda ∧
      (b.countEdge).outScl = b.outScl ∧
      (b.countEdge).sr = b.sr ∧
      (b.countEdge).sdo = b.sdo ∧
      (b.countEdge).cnt = b.cnt + 1#4 ∧
      (b.countEdge).fStart = b.fStart ∧
      (b.countEdge).fOvf = (b.fOvf || b.cnt == 15#4) ∧
      (b.countEdge).fStop = b.fStop ∧
      (b.countEdge).fColl = b.fColl ∧
      (b.countEdge).control = b.control ∧
      (b.countEdge).xfer = b.xfer ∧
      (b.countEdge).busy = b.busy ∧
      (b.countEdge).op = b.op ∧
      (b.countEdge).arg = b.arg ∧
      (b.countEdge).upc = b.upc ∧
      (b.countEdge).tret = b.tret ∧
      (b.countEdge).tw = b.tw ∧
      (b.countEdge).cap = b.cap ∧
      (b.countEdge).rxb = b.rxb ∧
      (b.countEdge).rspValid = b.rspValid ∧
      (b.countEdge).rspAck = b.rspAck ∧
      (b.countEdge).rspData = b.rspData :=
  ⟨rfl, rfl, rfl, rfl, rfl, rfl, rfl, rfl, rfl, rfl, rfl, rfl, rfl, rfl, rfl, rfl, rfl, rfl, rfl, rfl, rfl, rfl, rfl, rfl⟩

/-- The fields after `STROBE_TC` (R89). -/
@[simp] theorem Block.strobeTc_fields (b : Block) :
    (b.strobeTc).dirSda = b.dirSda ∧
      (b.strobeTc).dirScl = b.dirScl ∧
      (b.strobeTc).outSda = b.outSda ∧
      (b.strobeTc).outScl = (!b.outScl) ∧
      (b.strobeTc).sr = b.sr ∧
      (b.strobeTc).sdo = b.sdo ∧
      (b.strobeTc).cnt = b.cnt + 1#4 ∧
      (b.strobeTc).fStart = b.fStart ∧
      (b.strobeTc).fOvf = (b.fOvf || b.cnt == 15#4) ∧
      (b.strobeTc).fStop = b.fStop ∧
      (b.strobeTc).fColl = b.fColl ∧
      (b.strobeTc).control = b.control ∧
      (b.strobeTc).xfer = b.xfer ∧
      (b.strobeTc).busy = b.busy ∧
      (b.strobeTc).op = b.op ∧
      (b.strobeTc).arg = b.arg ∧
      (b.strobeTc).upc = b.upc ∧
      (b.strobeTc).tret = b.tret ∧
      (b.strobeTc).tw = b.tw ∧
      (b.strobeTc).cap = b.cap ∧
      (b.strobeTc).rxb = b.rxb ∧
      (b.strobeTc).rspValid = b.rspValid ∧
      (b.strobeTc).rspAck = b.rspAck ∧
      (b.strobeTc).rspData = b.rspData :=
  ⟨rfl, rfl, rfl, rfl, rfl, rfl, rfl, rfl, rfl, rfl, rfl, rfl, rfl, rfl, rfl, rfl, rfl, rfl, rfl, rfl, rfl, rfl, rfl, rfl⟩

/-- The fields after `CAP <- SR; XFER <- 0` (R95). -/
@[simp] theorem Block.capture_fields (b : Block) :
    (b.capture).dirSda = b.dirSda ∧
      (b.capture).dirScl = b.dirScl ∧
      (b.capture).outSda = b.outSda ∧
      (b.capture).outScl = b.outScl ∧
      (b.capture).sr = b.sr ∧
      (b.capture).sdo = b.sdo ∧
      (b.capture).cnt = b.cnt ∧
      (b.capture).fStart = b.fStart ∧
      (b.capture).fOvf = b.fOvf ∧
      (b.capture).fStop = b.fStop ∧
      (b.capture).fColl = b.fColl ∧
      (b.capture).control = b.control ∧
      (b.capture).xfer = false ∧
      (b.capture).busy = b.busy ∧
      (b.capture).op = b.op ∧
      (b.capture).arg = b.arg ∧
      (b.capture).upc = b.upc ∧
      (b.capture).tret = b.tret ∧
      (b.capture).tw = b.tw ∧
      (b.capture).cap = b.sr ∧
      (b.capture).rxb = b.rxb ∧
      (b.capture).rspValid = b.rspValid ∧
      (b.capture).rspAck = b.rspAck ∧
      (b.capture).rspData = b.rspData :=
  ⟨rfl, rfl, rfl, rfl, rfl, rfl, rfl, rfl, rfl, rfl, rfl, rfl, rfl, rfl, rfl, rfl, rfl, rfl, rfl, rfl, rfl, rfl, rfl, rfl⟩

/-- The fields after `CALL(w, ret)` (R93). -/
@[simp] theorem Block.call_fields (w : Byte) (r : RetLabel) (b : Block) :
    (b.call w r).dirSda = b.dirSda ∧
      (b.call w r).dirScl = b.dirScl ∧
      (b.call w r).outSda = b.outSda ∧
      (b.call w r).outScl = b.outScl ∧
      (b.call w r).sr = b.sr ∧
      (b.call w r).sdo = b.sdo ∧
      (b.call w r).cnt = b.cnt ∧
      (b.call w r).fStart = b.fStart ∧
      (b.call w r).fOvf = b.fOvf ∧
      (b.call w r).fStop = b.fStop ∧
      (b.call w r).fColl = b.fColl ∧
      (b.call w r).control = b.control ∧
      (b.call w r).xfer = b.xfer ∧
      (b.call w r).busy = b.busy ∧
      (b.call w r).op = b.op ∧
      (b.call w r).arg = b.arg ∧
      (b.call w r).upc = .transfer .t0 ∧
      (b.call w r).tret = r ∧
      (b.call w r).tw = w ∧
      (b.call w r).cap = b.cap ∧
      (b.call w r).rxb = b.rxb ∧
      (b.call w r).rspValid = b.rspValid ∧
      (b.call w r).rspAck = b.rspAck ∧
      (b.call w r).rspData = b.rspData :=
  ⟨rfl, rfl, rfl, rfl, rfl, rfl, rfl, rfl, rfl, rfl, rfl, rfl, rfl, rfl, rfl, rfl, rfl, rfl, rfl, rfl, rfl, rfl, rfl, rfl⟩

/-- The fields after `FIN` (R92). -/
@[simp] theorem Block.fin_fields (r : Result) (b : Block) :
    (b.fin r).dirSda = b.dirSda ∧
      (b.fin r).dirScl = b.dirScl ∧
      (b.fin r).outSda = b.outSda ∧
      (b.fin r).outScl = b.outScl ∧
      (b.fin r).sr = b.sr ∧
      (b.fin r).sdo = b.sdo ∧
      (b.fin r).cnt = b.cnt ∧
      (b.fin r).fStart = b.fStart ∧
      (b.fin r).fOvf = b.fOvf ∧
      (b.fin r).fStop = b.fStop ∧
      (b.fin r).fColl = b.fColl ∧
      (b.fin r).control = b.control ∧
      (b.fin r).xfer = b.xfer ∧
      (b.fin r).busy = false ∧
      (b.fin r).op = b.op ∧
      (b.fin r).arg = b.arg ∧
      (b.fin r).upc = .idle ∧
      (b.fin r).tret = b.tret ∧
      (b.fin r).tw = b.tw ∧
      (b.fin r).cap = b.cap ∧
      (b.fin r).rxb = b.rxb ∧
      (b.fin r).rspValid = true ∧
      (b.fin r).rspAck = (b.resultOf r).1 ∧
      (b.fin r).rspData = (b.resultOf r).2 :=
  ⟨rfl, rfl, rfl, rfl, rfl, rfl, rfl, rfl, rfl, rfl, rfl, rfl, rfl, rfl, rfl, rfl, rfl, rfl, rfl, rfl, rfl, rfl, rfl, rfl⟩

/-- The fields after the flags INIT clears (R110). -/
@[simp] theorem Block.clearFlags_fields (b : Block) :
    (b.clearFlags).dirSda = b.dirSda ∧
      (b.clearFlags).dirScl = b.dirScl ∧
      (b.clearFlags).outSda = b.outSda ∧
      (b.clearFlags).outScl = b.outScl ∧
      (b.clearFlags).sr = b.sr ∧
      (b.clearFlags).sdo = b.sdo ∧
      (b.clearFlags).cnt = b.cnt ∧
      (b.clearFlags).fStart = false ∧
      (b.clearFlags).fOvf = false ∧
      (b.clearFlags).fStop = false ∧
      (b.clearFlags).fColl = false ∧
      (b.clearFlags).control = b.control ∧
      (b.clearFlags).xfer = b.xfer ∧
      (b.clearFlags).busy = b.busy ∧
      (b.clearFlags).op = b.op ∧
      (b.clearFlags).arg = b.arg ∧
      (b.clearFlags).upc = b.upc ∧
      (b.clearFlags).tret = b.tret ∧
      (b.clearFlags).tw = b.tw ∧
      (b.clearFlags).cap = b.cap ∧
      (b.clearFlags).rxb = b.rxb ∧
      (b.clearFlags).rspValid = b.rspValid ∧
      (b.clearFlags).rspAck = b.rspAck ∧
      (b.clearFlags).rspData = b.rspData :=
  ⟨rfl, rfl, rfl, rfl, rfl, rfl, rfl, rfl, rfl, rfl, rfl, rfl, rfl, rfl, rfl, rfl, rfl, rfl, rfl, rfl, rfl, rfl, rfl, rfl⟩

/-- The fields after step I0 (R110). -/
@[simp] theorem Block.configure_fields (b : Block) :
    (b.configure).dirSda = true ∧
      (b.configure).dirScl = true ∧
      (b.configure).outSda = true ∧
      (b.configure).outScl = true ∧
      (b.configure).sr = Config.idleHigh ∧
      (b.configure).sdo = true ∧
      (b.configure).cnt = 0#4 ∧
      (b.configure).fStart = false ∧
      (b.configure).fOvf = false ∧
      (b.configure).fStop = false ∧
      (b.configure).fColl = false ∧
      (b.configure).control = Config.controlWord ∧
      (b.configure).xfer = false ∧
      (b.configure).busy = b.busy ∧
      (b.configure).op = b.op ∧
      (b.configure).arg = b.arg ∧
      (b.configure).upc = b.upc ∧
      (b.configure).tret = b.tret ∧
      (b.configure).tw = b.tw ∧
      (b.configure).cap = b.cap ∧
      (b.configure).rxb = b.rxb ∧
      (b.configure).rspValid = b.rspValid ∧
      (b.configure).rspAck = b.rspAck ∧
      (b.configure).rspData = b.rspData :=
  ⟨rfl, rfl, rfl, rfl, rfl, rfl, rfl, rfl, rfl, rfl, rfl, rfl, rfl, rfl, rfl, rfl, rfl, rfl, rfl, rfl, rfl, rfl, rfl, rfl⟩

/-- The fields after acceptance (R62). -/
@[simp] theorem Block.accept_fields (o : Opcode) (a : Byte) (l : Label) (b : Block) :
    (b.accept o a l).dirSda = b.dirSda ∧
      (b.accept o a l).dirScl = b.dirScl ∧
      (b.accept o a l).outSda = b.outSda ∧
      (b.accept o a l).outScl = b.outScl ∧
      (b.accept o a l).sr = b.sr ∧
      (b.accept o a l).sdo = b.sdo ∧
      (b.accept o a l).cnt = b.cnt ∧
      (b.accept o a l).fStart = b.fStart ∧
      (b.accept o a l).fOvf = b.fOvf ∧
      (b.accept o a l).fStop = b.fStop ∧
      (b.accept o a l).fColl = b.fColl ∧
      (b.accept o a l).control = b.control ∧
      (b.accept o a l).xfer = b.xfer ∧
      (b.accept o a l).busy = true ∧
      (b.accept o a l).op = o ∧
      (b.accept o a l).arg = a ∧
      (b.accept o a l).upc = l ∧
      (b.accept o a l).tret = b.tret ∧
      (b.accept o a l).tw = b.tw ∧
      (b.accept o a l).cap = b.cap ∧
      (b.accept o a l).rxb = b.rxb ∧
      (b.accept o a l).rspValid = false ∧
      (b.accept o a l).rspAck = b.rspAck ∧
      (b.accept o a l).rspData = b.rspData :=
  ⟨rfl, rfl, rfl, rfl, rfl, rfl, rfl, rfl, rfl, rfl, rfl, rfl, rfl, rfl, rfl, rfl, rfl, rfl, rfl, rfl, rfl, rfl, rfl, rfl⟩

/-- The fields after the shift of the line update (R84). -/
@[simp] theorem Block.shiftOnRise_fields (scl0 scl1 sda0 : Level) (b : Block) :
    (b.shiftOnRise scl0 scl1 sda0).dirSda = b.dirSda ∧
      (b.shiftOnRise scl0 scl1 sda0).dirScl = b.dirScl ∧
      (b.shiftOnRise scl0 scl1 sda0).outSda = b.outSda ∧
      (b.shiftOnRise scl0 scl1 sda0).outScl = b.outScl ∧
      (b.shiftOnRise scl0 scl1 sda0).sr = (if !scl0 && scl1 && b.xfer then shiftIn b.sr sda0 else b.sr) ∧
      (b.shiftOnRise scl0 scl1 sda0).sdo = b.sdo ∧
      (b.shiftOnRise scl0 scl1 sda0).cnt = b.cnt ∧
      (b.shiftOnRise scl0 scl1 sda0).fStart = b.fStart ∧
      (b.shiftOnRise scl0 scl1 sda0).fOvf = b.fOvf ∧
      (b.shiftOnRise scl0 scl1 sda0).fStop = b.fStop ∧
      (b.shiftOnRise scl0 scl1 sda0).fColl = b.fColl ∧
      (b.shiftOnRise scl0 scl1 sda0).control = b.control ∧
      (b.shiftOnRise scl0 scl1 sda0).xfer = b.xfer ∧
      (b.shiftOnRise scl0 scl1 sda0).busy = b.busy ∧
      (b.shiftOnRise scl0 scl1 sda0).op = b.op ∧
      (b.shiftOnRise scl0 scl1 sda0).arg = b.arg ∧
      (b.shiftOnRise scl0 scl1 sda0).upc = b.upc ∧
      (b.shiftOnRise scl0 scl1 sda0).tret = b.tret ∧
      (b.shiftOnRise scl0 scl1 sda0).tw = b.tw ∧
      (b.shiftOnRise scl0 scl1 sda0).cap = b.cap ∧
      (b.shiftOnRise scl0 scl1 sda0).rxb = b.rxb ∧
      (b.shiftOnRise scl0 scl1 sda0).rspValid = b.rspValid ∧
      (b.shiftOnRise scl0 scl1 sda0).rspAck = b.rspAck ∧
      (b.shiftOnRise scl0 scl1 sda0).rspData = b.rspData :=
  ⟨rfl, rfl, rfl, rfl, rfl, rfl, rfl, rfl, rfl, rfl, rfl, rfl, rfl, rfl, rfl, rfl, rfl, rfl, rfl, rfl, rfl, rfl, rfl, rfl⟩

/-- The fields after the output latch (R84). -/
@[simp] theorem Block.latchOut_fields (scl1 : Level) (b : Block) :
    (b.latchOut scl1).dirSda = b.dirSda ∧
      (b.latchOut scl1).dirScl = b.dirScl ∧
      (b.latchOut scl1).outSda = b.outSda ∧
      (b.latchOut scl1).outScl = b.outScl ∧
      (b.latchOut scl1).sr = b.sr ∧
      (b.latchOut scl1).sdo = (if scl1 then b.sdo else b.sr.getLsbD 7) ∧
      (b.latchOut scl1).cnt = b.cnt ∧
      (b.latchOut scl1).fStart = b.fStart ∧
      (b.latchOut scl1).fOvf = b.fOvf ∧
      (b.latchOut scl1).fStop = b.fStop ∧
      (b.latchOut scl1).fColl = b.fColl ∧
      (b.latchOut scl1).control = b.control ∧
      (b.latchOut scl1).xfer = b.xfer ∧
      (b.latchOut scl1).busy = b.busy ∧
      (b.latchOut scl1).op = b.op ∧
      (b.latchOut scl1).arg = b.arg ∧
      (b.latchOut scl1).upc = b.upc ∧
      (b.latchOut scl1).tret = b.tret ∧
      (b.latchOut scl1).tw = b.tw ∧
      (b.latchOut scl1).cap = b.cap ∧
      (b.latchOut scl1).rxb = b.rxb ∧
      (b.latchOut scl1).rspValid = b.rspValid ∧
      (b.latchOut scl1).rspAck = b.rspAck ∧
      (b.latchOut scl1).rspData = b.rspData :=
  ⟨rfl, rfl, rfl, rfl, rfl, rfl, rfl, rfl, rfl, rfl, rfl, rfl, rfl, rfl, rfl, rfl, rfl, rfl, rfl, rfl, rfl, rfl, rfl, rfl⟩

/-- The fields after the conditions of the line update (R84). -/
@[simp] theorem Block.noteConditions_fields (scl0 scl1 sda0 sda1 : Level) (b : Block) :
    (b.noteConditions scl0 scl1 sda0 sda1).dirSda = b.dirSda ∧
      (b.noteConditions scl0 scl1 sda0 sda1).dirScl = b.dirScl ∧
      (b.noteConditions scl0 scl1 sda0 sda1).outSda = b.outSda ∧
      (b.noteConditions scl0 scl1 sda0 sda1).outScl = b.outScl ∧
      (b.noteConditions scl0 scl1 sda0 sda1).sr = b.sr ∧
      (b.noteConditions scl0 scl1 sda0 sda1).sdo = b.sdo ∧
      (b.noteConditions scl0 scl1 sda0 sda1).cnt = b.cnt ∧
      (b.noteConditions scl0 scl1 sda0 sda1).fStart = (b.fStart || startCondition scl0 scl1 sda0 sda1) ∧
      (b.noteConditions scl0 scl1 sda0 sda1).fOvf = b.fOvf ∧
      (b.noteConditions scl0 scl1 sda0 sda1).fStop = (b.fStop || stopCondition scl0 scl1 sda0 sda1) ∧
      (b.noteConditions scl0 scl1 sda0 sda1).fColl = b.fColl ∧
      (b.noteConditions scl0 scl1 sda0 sda1).control = b.control ∧
      (b.noteConditions scl0 scl1 sda0 sda1).xfer = b.xfer ∧
      (b.noteConditions scl0 scl1 sda0 sda1).busy = b.busy ∧
      (b.noteConditions scl0 scl1 sda0 sda1).op = b.op ∧
      (b.noteConditions scl0 scl1 sda0 sda1).arg = b.arg ∧
      (b.noteConditions scl0 scl1 sda0 sda1).upc = b.upc ∧
      (b.noteConditions scl0 scl1 sda0 sda1).tret = b.tret ∧
      (b.noteConditions scl0 scl1 sda0 sda1).tw = b.tw ∧
      (b.noteConditions scl0 scl1 sda0 sda1).cap = b.cap ∧
      (b.noteConditions scl0 scl1 sda0 sda1).rxb = b.rxb ∧
      (b.noteConditions scl0 scl1 sda0 sda1).rspValid = b.rspValid ∧
      (b.noteConditions scl0 scl1 sda0 sda1).rspAck = b.rspAck ∧
      (b.noteConditions scl0 scl1 sda0 sda1).rspData = b.rspData :=
  ⟨rfl, rfl, rfl, rfl, rfl, rfl, rfl, rfl, rfl, rfl, rfl, rfl, rfl, rfl, rfl, rfl, rfl, rfl, rfl, rfl, rfl, rfl, rfl, rfl⟩

/-- The fields after `SET_OUT(SDA, v)` (R85). -/
@[simp] theorem Block.setOut_sda_fields (v : Level) (b : Block) :
    (b.setOut .sda v).dirSda = b.dirSda ∧
      (b.setOut .sda v).dirScl = b.dirScl ∧
      (b.setOut .sda v).outSda = v ∧
      (b.setOut .sda v).outScl = b.outScl ∧
      (b.setOut .sda v).sr = b.sr ∧
      (b.setOut .sda v).sdo = b.sdo ∧
      (b.setOut .sda v).cnt = b.cnt ∧
      (b.setOut .sda v).fStart = b.fStart ∧
      (b.setOut .sda v).fOvf = b.fOvf ∧
      (b.setOut .sda v).fStop = b.fStop ∧
      (b.setOut .sda v).fColl = b.fColl ∧
      (b.setOut .sda v).control = b.control ∧
      (b.setOut .sda v).xfer = b.xfer ∧
      (b.setOut .sda v).busy = b.busy ∧
      (b.setOut .sda v).op = b.op ∧
      (b.setOut .sda v).arg = b.arg ∧
      (b.setOut .sda v).upc = b.upc ∧
      (b.setOut .sda v).tret = b.tret ∧
      (b.setOut .sda v).tw = b.tw ∧
      (b.setOut .sda v).cap = b.cap ∧
      (b.setOut .sda v).rxb = b.rxb ∧
      (b.setOut .sda v).rspValid = b.rspValid ∧
      (b.setOut .sda v).rspAck = b.rspAck ∧
      (b.setOut .sda v).rspData = b.rspData :=
  ⟨rfl, rfl, rfl, rfl, rfl, rfl, rfl, rfl, rfl, rfl, rfl, rfl, rfl, rfl, rfl, rfl, rfl, rfl, rfl, rfl, rfl, rfl, rfl, rfl⟩

/-- The fields after `SET_OUT(SCL, v)` (R85). -/
@[simp] theorem Block.setOut_scl_fields (v : Level) (b : Block) :
    (b.setOut .scl v).dirSda = b.dirSda ∧
      (b.setOut .scl v).dirScl = b.dirScl ∧
      (b.setOut .scl v).outSda = b.outSda ∧
      (b.setOut .scl v).outScl = v ∧
      (b.setOut .scl v).sr = b.sr ∧
      (b.setOut .scl v).sdo = b.sdo ∧
      (b.setOut .scl v).cnt = b.cnt ∧
      (b.setOut .scl v).fStart = b.fStart ∧
      (b.setOut .scl v).fOvf = b.fOvf ∧
      (b.setOut .scl v).fStop = b.fStop ∧
      (b.setOut .scl v).fColl = b.fColl ∧
      (b.setOut .scl v).control = b.control ∧
      (b.setOut .scl v).xfer = b.xfer ∧
      (b.setOut .scl v).busy = b.busy ∧
      (b.setOut .scl v).op = b.op ∧
      (b.setOut .scl v).arg = b.arg ∧
      (b.setOut .scl v).upc = b.upc ∧
      (b.setOut .scl v).tret = b.tret ∧
      (b.setOut .scl v).tw = b.tw ∧
      (b.setOut .scl v).cap = b.cap ∧
      (b.setOut .scl v).rxb = b.rxb ∧
      (b.setOut .scl v).rspValid = b.rspValid ∧
      (b.setOut .scl v).rspAck = b.rspAck ∧
      (b.setOut .scl v).rspData = b.rspData :=
  ⟨rfl, rfl, rfl, rfl, rfl, rfl, rfl, rfl, rfl, rfl, rfl, rfl, rfl, rfl, rfl, rfl, rfl, rfl, rfl, rfl, rfl, rfl, rfl, rfl⟩

/-- The parts of the machine after a step of the environment (R45). -/
@[simp] theorem State.envStep_parts (l : Line) (s : State) :
    (s.envStep l).env = s.env.flip l ∧ (s.envStep l).rst = s.rst ∧
      (s.envStep l).script = s.script ∧ (s.envStep l).agenda = s.agenda ∧
      (s.envStep l).blk = s.blk.lineUpdate (s.env.flip l) s.sclLine s.sdaLine :=
  ⟨rfl, rfl, rfl, rfl, rfl⟩

/-- The parts of the machine after reset is asserted (R150). -/
@[simp] theorem State.assertReset_parts (s : State) :
    s.assertReset.env = s.env ∧ s.assertReset.rst = true ∧ s.assertReset.script = s.script ∧
      s.assertReset.agenda = s.agenda ∧ s.assertReset.blk = Block.reset :=
  ⟨rfl, rfl, rfl, rfl, rfl⟩

/-- The parts of the machine after reset is released (R150). -/
@[simp] theorem State.releaseReset_parts (s : State) :
    s.releaseReset.env = s.env ∧ s.releaseReset.rst = false ∧ s.releaseReset.script = s.script ∧
      s.releaseReset.agenda = s.agenda ∧ s.releaseReset.blk = s.blk :=
  ⟨rfl, rfl, rfl, rfl, rfl⟩

/-- The parts of the machine right after acceptance (R62). -/
@[simp] theorem State.accepted_parts (i : Instr) (s : State) :
    (s.accepted i).env = s.env ∧ (s.accepted i).rst = s.rst ∧ (s.accepted i).script = s.script ∧
      (s.accepted i).agenda = s.agenda ∧
      (s.accepted i).blk = s.blk.accept i.opcode i.operand (firstLabel i) :=
  ⟨rfl, rfl, rfl, rfl, rfl⟩

/-- One contribution of the environment flipped (R45). -/
@[simp] theorem Env.flip_parts (e : Env) :
    (e.flip .sda).sda = (!e.sda) ∧ (e.flip .sda).scl = e.scl ∧
      (e.flip .scl).sda = e.sda ∧ (e.flip .scl).scl = (!e.scl) :=
  ⟨rfl, rfl, rfl, rfl⟩

end Sys2Proof.Machine
end

