-- ==== Sys2Proof/Laws/Ops.lean ====
section
/-! SUPPORT. One lemma per shared operation: what the line update, a micro-step and the other agents'
steps can do. -/

namespace Sys2Proof.Machine

/-! ## The lines -/

/-- The clock line depends on the direction and the latch of the clock alone (R41, R43). -/
theorem Block.sclLine_congr {b c : Block} {e : Env} (hd : b.dirScl = c.dirScl) (ho : b.outScl = c.outScl) :
    b.sclLine e = c.sclLine e := by
  simp only [Block.sclLine, Block.mScl, hd, ho]

/-- The data line depends on the direction, the latch and `SDO` alone (R42, R43). -/
theorem Block.sdaLine_congr {b c : Block} {e : Env} (hd : b.dirSda = c.dirSda) (ho : b.outSda = c.outSda)
    (hs : b.sdo = c.sdo) : b.sdaLine e = c.sdaLine e := by
  simp only [Block.sdaLine, Block.mSda, hd, ho, hs]

/-- A clock line that reads high is let go by both sides (R43). -/
theorem Block.sclLine_eq_true {b : Block} {e : Env} :
    b.sclLine e = true ↔ (b.dirScl = true → b.outScl = true) ∧ e.scl = true := by
  cases hd : b.dirScl <;> cases ho : b.outScl <;> simp [Block.sclLine, Block.mScl, hd, ho]

/-- `CONTROL = 0x2A` turns two-wire mode on (R22). -/
theorem Block.twm_of_control {b : Block} (h : b.control = Config.controlWord) : b.twm = true := by
  simp only [Block.twm, h]; decide

/-- `CONTROL = 0x00` leaves the unit disabled (R22). -/
theorem Block.twm_of_disabled {b : Block} (h : b.control = 0x00#8) : b.twm = false := by
  simp only [Block.twm, h]; decide

/-! ## The line update (R84) -/

/-- The line update is four registers: `SR`, `SDO`, `F_START`, `F_STOP`. Nothing else changes. -/
@[simp] theorem Block.lineUpdate_frame (e : Env) (scl0 sda0 : Level) (b : Block) :
    (b.lineUpdate e scl0 sda0).dirSda = b.dirSda ∧ (b.lineUpdate e scl0 sda0).dirScl = b.dirScl ∧
      (b.lineUpdate e scl0 sda0).outSda = b.outSda ∧ (b.lineUpdate e scl0 sda0).outScl = b.outScl ∧
      (b.lineUpdate e scl0 sda0).cnt = b.cnt ∧ (b.lineUpdate e scl0 sda0).fOvf = b.fOvf ∧
      (b.lineUpdate e scl0 sda0).fColl = b.fColl ∧ (b.lineUpdate e scl0 sda0).control = b.control ∧
      (b.lineUpdate e scl0 sda0).xfer = b.xfer ∧ (b.lineUpdate e scl0 sda0).busy = b.busy ∧
      (b.lineUpdate e scl0 sda0).op = b.op ∧ (b.lineUpdate e scl0 sda0).arg = b.arg ∧
      (b.lineUpdate e scl0 sda0).upc = b.upc ∧ (b.lineUpdate e scl0 sda0).tret = b.tret ∧
      (b.lineUpdate e scl0 sda0).tw = b.tw ∧ (b.lineUpdate e scl0 sda0).cap = b.cap ∧
      (b.lineUpdate e scl0 sda0).rxb = b.rxb ∧ (b.lineUpdate e scl0 sda0).rspValid = b.rspValid ∧
      (b.lineUpdate e scl0 sda0).rspAck = b.rspAck ∧ (b.lineUpdate e scl0 sda0).rspData = b.rspData := by
  unfold Block.lineUpdate
  split <;> simp

/-- With the unit disabled the line update does nothing (R84). -/
theorem Block.lineUpdate_off {e : Env} {scl0 sda0 : Level} {b : Block} (h : b.twm = false) :
    b.lineUpdate e scl0 sda0 = b := by
  simp [Block.lineUpdate, h]

/-- The line update leaves the clock line as it found it. -/
@[simp] theorem Block.lineUpdate_sclLine (e : Env) (scl0 sda0 : Level) (b : Block) :
    (b.lineUpdate e scl0 sda0).sclLine e = b.sclLine e :=
  Block.sclLine_congr (by simp) (by simp)

/-- `SR` after the line update (R83, R84). -/
theorem Block.lineUpdate_sr (e : Env) (scl0 sda0 : Level) (b : Block) :
    (b.lineUpdate e scl0 sda0).sr =
      if b.twm && (!scl0 && b.sclLine e && b.xfer) then shiftIn b.sr sda0 else b.sr := by
  cases h : b.twm <;> simp [Block.lineUpdate, h]

/-- `SDO` after the line update: the new `SR[7]` while the clock reads low, unchanged while it reads high
(R15, R84). -/
theorem Block.lineUpdate_sdo (e : Env) (scl0 sda0 : Level) (b : Block) :
    (b.lineUpdate e scl0 sda0).sdo =
      if b.twm && !b.sclLine e then b.sr.getLsbD 7 else b.sdo := by
  cases h : b.twm <;> cases hs : b.sclLine e <;> simp [Block.lineUpdate, h, hs]

/-- `F_START` after the line update (R17, R84). -/
theorem Block.lineUpdate_fStart (e : Env) (scl0 sda0 : Level) (b : Block) :
    (b.lineUpdate e scl0 sda0).fStart =
      (b.fStart || (b.twm && startCondition scl0 (b.sclLine e) sda0 ((b.lineUpdate e scl0 sda0).sdaLine e))) := by
  cases h : b.twm
  · simp [Block.lineUpdate, h]
  · simp only [Block.lineUpdate, h, if_true, Block.noteConditions_fields, Block.latchOut_fields,
      Block.shiftOnRise_fields, Bool.true_and]
    rfl

/-- `F_STOP` after the line update (R19, R84). -/
theorem Block.lineUpdate_fStop (e : Env) (scl0 sda0 : Level) (b : Block) :
    (b.lineUpdate e scl0 sda0).fStop =
      (b.fStop || (b.twm && stopCondition scl0 (b.sclLine e) sda0 ((b.lineUpdate e scl0 sda0).sdaLine e))) := by
  cases h : b.twm
  · simp [Block.lineUpdate, h]
  · simp only [Block.lineUpdate, h, if_true, Block.noteConditions_fields, Block.latchOut_fields,
      Block.shiftOnRise_fields, Bool.true_and]
    rfl

/-- A line update with no line changed and the latch already at `SR[7]` or closed changes nothing
(R84, corner cases). -/
theorem Block.lineUpdate_idle {e : Env} {b : Block}
    (h : b.sclLine e = true ∨ b.sdo = b.sr.getLsbD 7) :
    b.lineUpdate e (b.sclLine e) (b.sdaLine e) = b := by
  have hshift : b.shiftOnRise (b.sclLine e) (b.sclLine e) (b.sdaLine e) = b := by
    simp [Block.shiftOnRise]
  have hlatch : b.latchOut (b.sclLine e) = b := by
    rcases h with h | h
    · simp [Block.latchOut, h]
    · rw [Block.latchOut, ← h, ite_self]
  have hnote : b.noteConditions (b.sclLine e) (b.sclLine e) (b.sdaLine e) (b.sdaLine e) = b := by
    cases hd : b.sdaLine e <;> simp [Block.noteConditions, startCondition, stopCondition]
  simp only [Block.lineUpdate, hshift, hlatch, hnote, ite_self]

/-- While the clock line reads high before and after, the line update leaves `SR` and `SDO` (R84). -/
theorem Block.lineUpdate_high {e : Env} {sda0 : Level} {b : Block} (h : b.sclLine e = true) :
    (b.lineUpdate e true sda0).sr = b.sr ∧ (b.lineUpdate e true sda0).sdo = b.sdo := by
  simp [Block.lineUpdate_sr, Block.lineUpdate_sdo, h]

/-- While the clock line reads low after the step, the line update moves no bit into `SR` and sets no flag
(R84). -/
theorem Block.lineUpdate_low {e : Env} {scl0 sda0 : Level} {b : Block} (h : b.sclLine e = false) :
    (b.lineUpdate e scl0 sda0).sr = b.sr ∧ (b.lineUpdate e scl0 sda0).fStart = b.fStart ∧
      (b.lineUpdate e scl0 sda0).fStop = b.fStop := by
  simp [Block.lineUpdate_sr, Block.lineUpdate_fStart, Block.lineUpdate_fStop, h, startCondition,
    stopCondition]

/-! ## One micro-step -/

/-- What a micro-operation that completes leaves: the writes of its first phase, `w`, and then, unless it is
I0 or FIN, the line update (R81). -/
theorem MicroOp.perform_cases {e : Env} {next : Label} {b b' : Block} {op : MicroOp}
    (h : op.perform e next b = some b') :
    (op = .configure ∧ b' = b.configure.goto next) ∨ (∃ r, op = .fin r ∧ b' = b.fin r) ∨
      (op = .waitScl ∧ b.sclLine e = true ∧ b' = b.twoPhase e fun b => b.goto next) ∨
      (op ≠ .configure ∧ (∀ r, op ≠ .fin r) ∧ op ≠ .waitScl ∧
        ∃ w : Block → Block, b' = b.twoPhase e w) := by
  cases op with
  | configure => exact .inl ⟨rfl, by simpa [MicroOp.perform] using h.symm⟩
  | fin r => exact .inr (.inl ⟨r, rfl, by simpa [MicroOp.perform] using h.symm⟩)
  | waitScl =>
    by_cases hs : b.sclLine e
    · exact .inr (.inr (.inl ⟨rfl, hs, by simpa [MicroOp.perform, hs] using h.symm⟩))
    · simp [MicroOp.perform, hs] at h
  | _ =>
    simp only [MicroOp.perform, Option.some.injEq] at h
    exact .inr (.inr (.inr ⟨by simp, by simp, by simp, _, h.symm⟩))

/-- A micro-operation is blocked only by a WAIT on a clock line that reads low (R90). -/
theorem MicroOp.perform_eq_none {e : Env} {next : Label} {b : Block} {op : MicroOp} :
    op.perform e next b = none ↔ op = .waitScl ∧ b.sclLine e = false := by
  cases op <;> simp [MicroOp.perform]

/-- A WAIT that is enabled changes nothing but `UPC` (R90). -/
theorem MicroOp.perform_waitScl {e : Env} {next : Label} {b : Block} (h : b.sclLine e = true) :
    MicroOp.waitScl.perform e next b = some { b with upc := next } := by
  have hl : (b.goto next).sclLine e = true := by
    rw [← h]; exact Block.sclLine_congr rfl rfl
  have hi := Block.lineUpdate_idle (e := e) (b := b.goto next) (.inl hl)
  simp only [MicroOp.perform, h, if_true, Block.twoPhase, Option.some.injEq]
  exact hl ▸ hi

end Sys2Proof.Machine
end

