-- ==== Sys2Proof/Laws/PerInstr.lean ====
section
/-! SUPPORT. What holds of every command as syntax, one lemma per constructor. -/

/-- The word of a command carries its opcode and its operand in the two fields of R60, and the command is
well formed whatever its operand bits (R61, R64). -/
def Sys2Proof.Laws.FieldsEncoded.Statement (i : Sys2Proof.Instr) : Prop :=
  Sys2Proof.opcodeField (Sys2Proof.encode i) = i.opcode ∧
    Sys2Proof.operandField (Sys2Proof.encode i) = i.operand ∧ i.wf = true

theorem Sys2Proof.Laws.FieldsEncoded.init (d : Byte) :
    Sys2Proof.Laws.FieldsEncoded.Statement (.init d) := by
  refine ⟨?_, ?_, rfl⟩ <;> rw [encode_eq_append] <;> simp

theorem Sys2Proof.Laws.FieldsEncoded.start (d : Byte) :
    Sys2Proof.Laws.FieldsEncoded.Statement (.start d) := by
  refine ⟨?_, ?_, rfl⟩ <;> rw [encode_eq_append] <;> simp

theorem Sys2Proof.Laws.FieldsEncoded.stop (d : Byte) :
    Sys2Proof.Laws.FieldsEncoded.Statement (.stop d) := by
  refine ⟨?_, ?_, rfl⟩ <;> rw [encode_eq_append] <;> simp

theorem Sys2Proof.Laws.FieldsEncoded.write (d : Byte) :
    Sys2Proof.Laws.FieldsEncoded.Statement (.write d) := by
  refine ⟨?_, ?_, rfl⟩ <;> rw [encode_eq_append] <;> simp

theorem Sys2Proof.Laws.FieldsEncoded.readAck (d : Byte) :
    Sys2Proof.Laws.FieldsEncoded.Statement (.readAck d) := by
  refine ⟨?_, ?_, rfl⟩ <;> rw [encode_eq_append] <;> simp

theorem Sys2Proof.Laws.FieldsEncoded.readNack (d : Byte) :
    Sys2Proof.Laws.FieldsEncoded.Statement (.readNack d) := by
  refine ⟨?_, ?_, rfl⟩ <;> rw [encode_eq_append] <;> simp
end

