-- ==== Sys2Proof/Laws/Sequencer.lean ====
section
/-! SUPPORT. What a step of the sequencer, a move, the run of a command, an execution and a step of the
machine can do, each said once. -/

namespace Sys2Proof.Machine

/-! ## The sequencer -/

/-- A micro-step taken is that of the label at `UPC`, with a command in progress (R80). -/
theorem Block.seqStep_some {e : Env} {b b' : Block} (h : b.seqStep e = some b') :
    b.busy = true ∧ ∃ m, microcode b.upc = some m ∧ m.op.perform e m.next b = some b' := by
  unfold Block.seqStep at h
  split at h
  · next hb =>
    split at h
    · simp at h
    · next m hm => exact ⟨hb, m, hm, h⟩
  · simp at h

/-- The micro-step of the machine is the block's, and nothing else moves. -/
theorem State.seqStep_some {s t : State} (h : s.seqStep = some t) :
    s.rst = false ∧ ∃ b', s.blk.seqStep s.env = some b' ∧ t = { s with blk := b' } := by
  unfold State.seqStep at h
  split at h
  · simp at h
  · next hr =>
    simp only [Option.map_eq_some_iff] at h
    obtain ⟨b', hb, rfl⟩ := h
    exact ⟨by simpa using hr, b', hb, rfl⟩

/-- The labels whose micro-step is a WAIT: S1, P2 and T3 (R131). -/
theorem microcode_waitScl {l : Label} {m : MicroStep} (h : microcode l = some m) :
    m.op = .waitScl ↔ l = .start .s1 ∨ l = .stop .p2 ∨ l = .transfer .t3 := by
  cases l with
  | idle => simp [microcode] at h
  | init l => cases l <;> simp [microcode, initProgram] at h <;> subst h <;> simp
  | start l => cases l <;> simp [microcode, startProgram] at h <;> subst h <;> simp
  | stop l => cases l <;> simp [microcode, stopProgram] at h <;> subst h <;> simp
  | write l => cases l <;> simp [microcode, writeProgram] at h <;> subst h <;> simp
  | readAck l => cases l <;> simp [microcode, readAckProgram] at h <;> subst h <;> simp
  | readNack l => cases l <;> simp [microcode, readNackProgram] at h <;> subst h <;> simp
  | transfer l => cases l <;> simp [microcode, transferProgram] at h <;> subst h <;> simp

/-- Only `IDLE` has no micro-step. -/
theorem microcode_eq_none {l : Label} : microcode l = none ↔ l = .idle := by
  cases l <;> simp [microcode]

/-! ## Moves and runs -/

/-- What a move can do: nothing, a micro-step, a step of the environment, or reset (R6). -/
theorem State.move_cases (m : Move) (s : State) :
    s.move m = s ∨ s.seqStep = some (s.move m) ∨
      (∃ l, m = .environment l ∧ s.rst = false ∧ s.move m = s.envStep l) ∨
      (m = .assertReset ∧ s.move m = s.assertReset) ∨
      (m = .releaseReset ∧ s.move m = s.releaseReset) := by
  cases m with
  | sequencer =>
    cases h : s.seqStep with
    | none => exact .inl (by simp [State.move, h])
    | some t => exact .inr (.inl (by simp [State.move, h]))
  | environment l =>
    cases hr : s.rst with
    | true => exact .inl (by simp [State.move, hr])
    | false => exact .inr (.inr (.inl ⟨l, rfl, rfl, by simp [State.move, hr]⟩))
  | host => exact .inl rfl
  | readResponse => exact .inl rfl
  | wait => exact .inl rfl
  | assertReset => exact .inr (.inr (.inr (.inl ⟨rfl, rfl⟩)))
  | releaseReset => exact .inr (.inr (.inr (.inr ⟨rfl, rfl⟩)))

/-- A micro-step leaves the script, the agenda, the environment and the reset input. -/
theorem State.seqStep_frame {s t : State} (h : s.seqStep = some t) :
    t.env = s.env ∧ t.rst = s.rst ∧ t.script = s.script ∧ t.agenda = s.agenda := by
  obtain ⟨_, b', _, rfl⟩ := State.seqStep_some h
  exact ⟨rfl, rfl, rfl, rfl⟩

/-- A move leaves the script and the agenda. -/
theorem State.move_frame (m : Move) (s : State) :
    (s.move m).script = s.script ∧ (s.move m).agenda = s.agenda := by
  rcases State.move_cases m s with h | h | ⟨l, _, _, h⟩ | ⟨_, h⟩ | ⟨_, h⟩
  · simp [h]
  · obtain ⟨_, _, h3, h4⟩ := State.seqStep_frame h
    exact ⟨h3, h4⟩
  all_goals simp [h]

/-- The induction over a quiet run: what every micro-step keeps, the run keeps. -/
theorem State.runQuiet_keeps {P : State → Prop}
    (hstep : ∀ s t, P s → s.seqStep = some t → P t) :
    ∀ n s, P s → P (s.runQuiet n) := by
  intro n
  induction n with
  | zero => intro s hs; exact hs
  | succ n ih =>
    intro s hs
    unfold State.runQuiet
    split
    · exact hs
    · next t ht => exact ih t (hstep s t hs ht)

/-- The induction over the run of a command: what every micro-step and every move of the agenda keep, the
run keeps. `P` may speak of the agenda still to come. -/
theorem State.runAgenda_keeps {P : State → Prop}
    (hstep : ∀ s t, P s → s.seqStep = some t → P t)
    (hmove : ∀ m ms s, P s → s.agenda = m :: ms → P ({ s with agenda := ms }.move m)) :
    ∀ ms s, s.agenda = ms → P s → P (State.runAgenda ms s) := by
  intro ms
  induction ms with
  | nil => intro s _ hs; exact State.runQuiet_keeps hstep _ s hs
  | cons m ms ih =>
    intro s ha hs
    unfold State.runAgenda
    split
    · exact ih _ (State.move_frame m _).2 (hmove m ms s hs ha)
    · exact hs

/-- The same for `run`. -/
theorem State.run_keeps {P : State → Prop}
    (hstep : ∀ s t, P s → s.seqStep = some t → P t)
    (hmove : ∀ m ms s, P s → s.agenda = m :: ms → P ({ s with agenda := ms }.move m))
    (s : State) (hs : P s) : P s.run :=
  State.runAgenda_keeps hstep hmove s.agenda s rfl hs

@[simp] theorem lastState_nil (s : State) : lastState s [] = s := rfl

@[simp] theorem lastState_cons (s : State) (e : Event) (es : List Event) :
    lastState s (e :: es) = lastState e.after es := rfl

/-- The trail of a quiet run ends where the run ends. -/
theorem State.trailQuiet_last : ∀ n (s : State), lastState s (s.trailQuiet n) = s.runQuiet n := by
  intro n
  induction n with
  | zero => intro s; rfl
  | succ n ih =>
    intro s
    unfold State.trailQuiet State.runQuiet
    split
    · rfl
    · next t _ => simpa using ih t

/-- Which moves are enabled does not depend on what is planned after them. -/
@[simp] theorem State.enabled_agenda (m : Move) (a : List Move) (s : State) :
    State.enabled m { s with agenda := a } = s.enabled m := by
  cases m with
  | sequencer => simp [State.enabled, State.seqStep]; split <;> simp
  | environment _ => rfl
  | host => rfl
  | readResponse => rfl
  | wait => rfl
  | assertReset => rfl
  | releaseReset => rfl

/-- A move that is not enabled changes nothing (log 2). -/
theorem State.move_of_not_enabled {m : Move} {s : State} (h : s.enabled m = false) : s.move m = s := by
  cases m with
  | sequencer =>
    have hq : s.seqStep = none := by simpa [State.enabled] using h
    simp [State.move, hq]
  | environment l =>
    have hr : s.rst = true := by simpa [State.enabled] using h
    simp [State.move, hr]
  | host => rfl
  | readResponse => rfl
  | wait => rfl
  | assertReset =>
    have hr : s.rst = true ∧ s.blk = Block.reset := by simpa [State.enabled] using h
    simp [State.move, State.assertReset, ← hr.1, ← hr.2]
  | releaseReset =>
    have hr : s.rst = false := by simpa [State.enabled] using h
    simp [State.move, State.releaseReset, ← hr]

/-- Where a list of events ends does not depend on what was planned before it, but for the agenda itself. -/
theorem lastState_agenda (a b : List Move) (s : State) (es : List Event) :
    { lastState { s with agenda := a } es with agenda := b } = { lastState s es with agenda := b } := by
  cases es with
  | nil => rfl
  | cons e es => rfl

/-- The event of a move, if there is one, and the rest end where the rest ends that follows the move. -/
theorem State.eventOf_last (m : Move) (a b : List Move) (s : State) (es : List Event) :
    { lastState s (s.eventOf m a ++ es) with agenda := b } =
      { lastState ({ s with agenda := a }.move m) es with agenda := b } := by
  unfold State.eventOf
  cases h : s.enabled m with
  | true => rfl
  | false =>
    rw [State.move_of_not_enabled (by simpa using h)]
    exact (lastState_agenda a b s es).symm

/-- The trail of a command ends where its run ends, so what is read off the trail is about the run. A planned
move that was not enabled leaves no event, so the agenda is the run's. -/
theorem State.trail_last (s : State) : { lastState s s.trail with agenda := s.run.agenda } = s.run := by
  unfold State.trail State.run
  generalize s.agenda = ms
  induction ms generalizing s with
  | nil => simp only [State.trailAgenda, State.runAgenda, State.trailQuiet_last]
  | cons m ms ih =>
    unfold State.trailAgenda State.runAgenda
    split
    · exact (State.eventOf_last m ms _ s _).trans (ih _)
    · rfl

/-! ## Executions and steps -/

/-- Every meaning is the issue of its command. -/
theorem exec_eq (i : Instr) (s : State) :
    exec i s = if i.opcode = 0#3 then s.issue i else s.issueAfterInit i := by
  cases i <;> simp [exec, execInit, execStart, execStop, execWrite, execReadAck, execReadNack,
    Instr.opcode]

/-- What an execution that answers a next state has done: nothing, where the machine is not ready; else the
command has been accepted, which but for INIT takes `CONTROL = 0x2A`, and run (R62, R63). -/
theorem exec_next {i : Instr} {s t : State} (h : exec i s = .next t) :
    (s.ready = false ∧ t = s) ∨
      (s.ready = true ∧ (i.opcode = 0#3 ∨ s.blk.control = Config.controlWord) ∧
        t = (s.accepted i).run) := by
  rw [exec_eq] at h
  by_cases hr : s.ready = true
  · right
    by_cases ho : i.opcode = 0#3
    · simp only [ho, if_true, State.issue, hr, Host.Outcome.next.injEq] at h
      exact ⟨hr, .inl ho, h.symm⟩
    · by_cases hc : s.blk.control = Config.controlWord
      · simp [ho, State.issueAfterInit, State.issue, hr, hc] at h
        exact ⟨hr, .inr hc, h.symm⟩
      · simp [ho, State.issueAfterInit, hr, hc] at h
  · left
    have hr' : s.ready = false := by simpa using hr
    simp [State.issueAfterInit, State.issue, hr'] at h
    exact ⟨hr', h.symm⟩

/-- An execution in a machine that is ready, with `CONTROL = 0x2A` where the command is not INIT, runs the
command (R62). -/
theorem exec_of_ready {i : Instr} {s : State} (hr : s.ready = true)
    (hc : i.opcode = 0#3 ∨ s.blk.control = Config.controlWord) :
    exec i s = .next (s.accepted i).run := by
  rw [exec_eq]
  rcases hc with hc | hc <;> simp [hc, State.issueAfterInit, State.issue, hr]

/-- What a step that answers a next state has done: a word of the script was accepted and its command run,
or a move of the agenda made, or, with no move left, a micro-step, or nothing (R6). -/
theorem step_next {s t : State} (h : step s = .next t) :
    (∃ w u i, s.fetch = some (w, u) ∧ decode w = some i ∧ exec i u = .next t) ∨
      (s.fetch = none ∧
        ((∃ m ms, s.agenda = m :: ms ∧ t = { s with agenda := ms }.move m) ∨
          (s.agenda = [] ∧ (s.seqStep = some t ∨ t = s)))) := by
  unfold step at h
  split at h
  · next w u hf =>
    split at h
    · next i hd => exact .inl ⟨w, u, i, hf, hd, h⟩
    · simp [State.refuseReserved] at h
  · next hf =>
    refine .inr ⟨hf, ?_⟩
    unfold State.advance at h
    split at h
    · next m ms ha => exact .inl ⟨m, ms, ha, by simpa using h.symm⟩
    · next ha =>
      refine .inr ⟨ha, ?_⟩
      split at h
      · split at h
        · next u hu =>
          obtain rfl : u = t := by simpa using h
          exact .inl hu
        · simp at h
      · exact .inr (by simpa using h.symm)

/-- What a fetch has found: a ready machine, the first word of the script, and the host's turn (R62, R166). -/
theorem State.fetch_some {s u : State} {w : CmdWord} (h : s.fetch = some (w, u)) :
    s.ready = true ∧ ∃ ws, s.script = w :: ws ∧
      ((s.agenda = [] ∧ u = { s with script := ws }) ∨
        ∃ ms, s.agenda = .host :: ms ∧ u = { s with script := ws, agenda := ms }) := by
  unfold State.fetch at h
  split at h
  · next hr =>
    split at h <;> simp at h
    · next w' ws hs ha =>
      obtain ⟨rfl, rfl⟩ := h
      exact ⟨hr, ws, hs, .inl ⟨ha, rfl⟩⟩
    · next w' ws ms hs ha =>
      obtain ⟨rfl, rfl⟩ := h
      exact ⟨hr, ws, hs, .inr ⟨ms, ha, rfl⟩⟩
  · simp at h

end Sys2Proof.Machine
end

