-- ==== Sys2Proof/Laws/Run.lean ====
section
/-! SUPPORT. The trail of a step and of a run: where it ends, and what it is made of (R166). -/

namespace Sys2Proof.Machine

/-- A trail in two parts ends where the second part ends. -/
theorem lastState_append (s : State) (es fs : List Event) :
    lastState s (es ++ fs) = lastState (lastState s es) fs := by
  induction es generalizing s with
  | nil => rfl
  | cons e es ih => exact ih e.after

/-- The events of a step that accepts a word: the acceptance, then the command (R62, R166). -/
theorem State.stepTrail_of_accepted {s u t : State} {w : CmdWord} {i : Instr}
    (hf : s.fetch = some (w, u)) (hd : decode w = some i) (h : exec i u = .next t) :
    s.stepTrail = ⟨none, u.accepted i⟩ :: (u.accepted i).trail := by
  simp [State.stepTrail, hf, hd, h]

/-- The events of a step end in the state the step answers, but for the agenda, where a planned move that was
not enabled leaves no event. -/
theorem State.stepTrail_last {s t : State} (h : step s = .next t) :
    { lastState s s.stepTrail with agenda := t.agenda } = t := by
  rcases step_next h with ⟨w, u, i, hf, hd, he⟩ | ⟨hf, hadv⟩
  · rw [State.stepTrail_of_accepted hf hd he, lastState_cons]
    rcases exec_next he with ⟨hr, -⟩ | ⟨-, -, rfl⟩
    · obtain ⟨hs, ws, -, ⟨-, rfl⟩ | ⟨ms, -, rfl⟩⟩ := State.fetch_some hf
      · exact absurd (hs.symm.trans hr) (by decide)
      · exact absurd (hs.symm.trans hr) (by decide)
    · exact State.trail_last _
  · simp only [step, hf] at h
    unfold State.advance at h
    simp only [State.stepTrail, hf]
    cases ha : s.agenda with
    | cons m ms =>
      obtain rfl : { s with agenda := ms }.move m = t := by simpa [ha] using h
      have hl := State.eventOf_last m ms ({ s with agenda := ms }.move m).agenda s []
      rw [List.append_nil] at hl
      exact hl
    | nil =>
      simp only [ha] at h
      cases hq : s.seqStep with
      | some v =>
        obtain ⟨hr, b, hb, -⟩ := State.seqStep_some hq
        obtain rfl : v = t := by simpa [hr, (Block.seqStep_some hb).1, hq] using h
        rfl
      | none =>
        simp only [hq] at h
        split at h
        · simp at h
        · obtain rfl : s = t := by simpa using h
          rfl

/-- The trail of a run, one step more: the step's events, then those of the rest. -/
theorem State.runTrail_succ {n : Nat} {s t : State} (h : step s = .next t) :
    s.runTrail (n + 1) = s.stepTrail ++ t.runTrail n := by
  simp [State.runTrail, h]

/-- The responses of a trail in two parts. -/
@[simp] theorem responses_append (es fs : List Event) :
    responses (es ++ fs) = responses es ++ responses fs := by
  simp [responses]

@[simp] theorem contributes_nil (cur : Level) (bits : List Level) (s : State) :
    contributes cur bits s [] = true := rfl

/-- The entries a conforming slave keeps to: nine for a byte, most significant bit first (R46, R47). -/
theorem SlaveRole.contributions_length (accepts : Bool) (byte : Byte) :
    (SlaveRole.receives accepts).contributions.length = 9 ∧
      (SlaveRole.transmits byte).contributions.length = 9 := ⟨rfl, rfl⟩

/-- The labels that answer are the six FIN labels (R65, R92). -/
theorem Label.answers_iff (l : Label) :
    l.answers = true ↔ l = .init .iFin ∨ l = .start .sFin ∨ l = .stop .pFin ∨ l = .write .wFin ∨
      l = .readAck .aFin ∨ l = .readNack .nFin := by
  cases l with
  | idle => decide
  | init l => cases l <;> decide
  | start l => cases l <;> decide
  | stop l => cases l <;> decide
  | write l => cases l <;> decide
  | readAck l => cases l <;> decide
  | readNack l => cases l <;> decide
  | transfer l => cases l <;> decide

end Sys2Proof.Machine
end

