-- ==== Sys2Proof/Tests/Slice0.lean ====
section
/-! SUPPORT. Small tests. The expected results are those of spec/95_test_vectors.md (the vector is named
beside each) or are worked out by hand from a rule. `test_meets_<Name>` is a state, and operands, that meet
the hypotheses of `Obligations.<Name>`. -/

namespace Sys2Proof.Tests

open Sys2Proof.Machine

/-! ## States -/

/-- After INIT on an idle bus (V2), lines `11`. -/
def idle : State := { State.reset with blk := Block.reset.configure }

/-- After INIT and START (V3), as far as the lines go: the clock held low, lines `01`. -/
def held : State := { idle with blk := { idle.blk with outScl := false, fStart := true } }

/-- The same with the clock line, or the data line, pulled low by the environment. -/
def withLines (sda scl : Level) (s : State) : State := { s with env := { sda := sda, scl := scl } }

/-- The same with moves planned. -/
def withAgenda (ms : List Move) (s : State) : State := { s with agenda := ms }

/-- The block at a label of a command in progress, in `held`. -/
def heldAt (l : Label) (op : Opcode) : State :=
  { held with blk := { held.blk with busy := true, upc := l, op := op } }

/-- What a next state shows of itself. -/
def shown {α : Type} (f : State → α) (o : Host.Outcome State Fault Refusal) : Option α :=
  match o with
  | .next t => some (f t)
  | .fault _ => none
  | .refused _ => none

/-- The refusal a step answers. -/
def refusal (o : Host.Outcome State Fault Refusal) : Option Refusal :=
  match o with
  | .next _ => none
  | .fault _ => none
  | .refused r => some r

/-- The fault a step answers. -/
def fault (o : Host.Outcome State Fault Refusal) : Option Fault :=
  match o with
  | .next _ => none
  | .fault r => some r
  | .refused _ => none

/-- The response and the lines after a command. -/
def answer (s : State) : Option (Level × Byte) × (Level × Level) := (s.blk.response, s.lines)

/-! ## Well-formedness (R63, R153) -/

theorem test_word_reserved_6 : CmdWord.wf 0x600#11 = false := by decide
theorem test_word_reserved_7 : CmdWord.wf 0x7FF#11 = false := by decide
theorem test_opcode_reserved : opcodeDefined 6#3 = false := by decide
theorem test_word_wf : CmdWord.wf 0x5A5#11 = true := by decide
theorem test_instr_wf : Instr.wf (.readNack 0xFF#8) = true := by decide
theorem test_script_without_init : scriptAccepted [.start 0#8] = false := by decide
theorem test_session_without_init : sessionWf [.start 0#8, .stop 0#8] = false := by decide
theorem test_session_without_stop : sessionWf [.init 0#8, .start 0#8, .write 0xA0#8] = false := by decide
theorem test_session_byte_outside : sessionWf [.init 0#8, .write 0xA0#8] = false := by decide
theorem test_session_stop_outside : sessionWf [.init 0#8, .stop 0#8] = false := by decide
theorem test_session_init_inside : sessionWf [.init 0#8, .start 0#8, .init 0#8, .stop 0#8] = false := by decide
theorem test_transaction_without_stop : transactionsWf true [.write 0#8] = false := by decide

/-! ## Decoding (95_test_vectors.md section 2.1), each word written out from R60 and R61 -/

theorem test_decode_init : decode 0b000_11111111#11 = some (.init 0xFF#8) := by decide
theorem test_decode_start : decode 0b001_00000000#11 = some (.start 0x00#8) := by decide
theorem test_decode_stop : decode 0b010_00000000#11 = some (.stop 0x00#8) := by decide
theorem test_decode_write : decode 0b011_10100000#11 = some (.write 0xA0#8) := by decide
theorem test_decode_read_ack : decode 0b100_00000000#11 = some (.readAck 0x00#8) := by decide
theorem test_decode_read_nack : decode 0b101_10100101#11 = some (.readNack 0xA5#8) := by decide
theorem test_decode_reserved : decode 0x6FF#11 = none ∧ decode 0x700#11 = none := by decide
theorem test_encode_write : encode (.write 0xA0#8) = 0x3A0#11 := by decide
theorem test_table_word : decodeTableWord 11 0x3A0 = some (.write 0xA0#8) := by decide
theorem test_table_word_runs :
    shown State.completed (step (State.reset.withFetchWord 11 0x3A0)) = some true := by decide
theorem test_response_word : encodeResponse true 0x00#8 = 0x100#9 := by decide
theorem test_text_comment :
    TextForm.assemble [['W', 'R', 'I', 'T', 'E', ' ', '1', '6', '0', ' ', ';', 'x'], ['S', 'T', 'O', 'P']] =
      some [0x3A0#11, 0x200#11] := by decide
theorem test_text_comment_after_the_last_token :
    TextForm.parseLine ['W', 'R', 'I', 'T', 'E', ' ', '9', ';', '7'] = some (.write 0x09#8) := by decide
theorem test_text_operand_too_large : TextForm.parseLine ['W', 'R', 'I', 'T', 'E', ' ', '2', '5', '6'] = none := by
  decide

/-! ## Flags and the line update (section 2.2) -/

/-- (1,1,1,5) with `0xFE` gives (0,0,0,14). -/
theorem test_write_status :
    ({ Block.reset with fStart := true, fOvf := true, fStop := true, cnt := 5#4 } : Block).writeStatus 0xFE#8 =
      { Block.reset with cnt := 14#4 } := by decide

/-- (1,1,1,5) with `0x4E` gives (1,0,1,14). -/
theorem test_write_status_one_flag :
    ({ Block.reset with fStart := true, fOvf := true, fStop := true, cnt := 5#4 } : Block).writeStatus 0x4E#8 =
      { Block.reset with fStart := true, fStop := true, cnt := 14#4 } := by decide

/-- (1,15,0) gives (0,0,1). -/
theorem test_strobe_wraps :
    ({ Block.reset with outScl := true, cnt := 15#4 } : Block).strobeTc =
      { Block.reset with outScl := false, cnt := 0#4, fOvf := true } := by decide

/-- (0,14,0) gives (1,15,0). -/
theorem test_strobe_before_wrap :
    ({ Block.reset with cnt := 14#4 } : Block).strobeTc = { Block.reset with outScl := true, cnt := 15#4 } := by
  decide

/-- LU2: the shift takes the level before the edge, and `SDO` holds while the clock reads high. -/
theorem test_lu2 :
    ({ idle.blk with xfer := true, sr := 0xA0#8 } : Block).lineUpdate idle.env false true =
      { idle.blk with xfer := true, sr := 0x41#8 } := by decide

/-- LU3: no shift with `XFER = 0`. -/
theorem test_lu3 :
    ({ idle.blk with sr := 0xA0#8 } : Block).lineUpdate idle.env false true = { idle.blk with sr := 0xA0#8 } := by
  decide

/-- LU5: the latch moves the data line as the clock falls, and that is no start condition. -/
theorem test_lu5 :
    ({ held.blk with sr := 0x41#8, fStart := false } : Block).lineUpdate held.env true true =
      { held.blk with sr := 0x41#8, sdo := false, fStart := false } := by decide

/-- LU6 and LU7: the two conditions. -/
theorem test_lu6 :
    (({ idle.blk with outSda := false } : Block).lineUpdate idle.env true true).fStart = true := by decide
theorem test_lu7 : (idle.blk.lineUpdate idle.env true false).fStop = true := by decide

/-- LU10: on a slow line the shift happens in the environment's step. -/
theorem test_lu10 :
    ((withLines false false { idle with blk := { idle.blk with xfer := true, sr := 0x82#8 } }).envStep
      .scl).blk.sr = 0x04#8 := by decide

/-- LU1: nothing with the unit disabled. -/
theorem test_lu1 : ({ Block.reset with xfer := true } : Block).lineUpdate idle.env false true =
    { Block.reset with xfer := true } := by decide

/-! ## Commands, one step each -/

/-- V2. -/
theorem test_init : shown answer (exec (.init 0#8) State.reset) = some (some (false, 0x00#8), (true, true)) := by
  decide +kernel
theorem test_init_registers :
    shown (fun t => (t.blk.sr, t.blk.control, t.blk.status false)) (exec (.init 0#8) State.reset) =
      some (0xFF#8, 0x2A#8, 0x00#8) := by decide +kernel

/-- V3. -/
theorem test_start :
    shown (fun t => (t.blk.outScl, t.blk.status false, t.lines)) (exec (.start 0#8) idle) =
      some (false, 0x80#8, (false, true)) := by decide +kernel
/-- V10: a stuck clock. -/
theorem test_start_hangs :
    shown (fun t => (t.blk.upc, t.blk.busy, t.lines)) (exec (.start 0#8) (withLines true false idle)) =
      some (.start .s1, true, (false, true)) := by decide +kernel

/-- V3. -/
theorem test_stop :
    shown (fun t => (t.blk.outScl, t.blk.status false, t.lines)) (exec (.stop 0#8) held) =
      some (true, 0xA0#8, (true, true)) := by decide +kernel
/-- X1: a STOP with no START makes a start condition too. -/
theorem test_stop_after_init : shown (fun t => t.blk.status false) (exec (.stop 0#8) idle) = some 0xA0#8 := by
  decide +kernel

/-- V5: nobody acknowledges. -/
theorem test_write_absent :
    shown (fun t => (answer t, t.blk.cap, t.blk.status false)) (exec (.write 0xA0#8) held) =
      some ((some (false, 0x00#8), (false, true)), 0xFF#8, 0x40#8) := by decide +kernel

/-- The slave of V4: it pulls the data line low after the eighth falling edge and lets it go after the ninth. -/
def slaveAck : List Move :=
  List.replicate 51 Move.sequencer ++ [Move.environment .sda] ++ List.replicate 13 Move.sequencer ++ [Move.environment .sda]

/-- V4. -/
theorem test_write_acknowledged :
    shown (fun t => (answer t, t.blk.cap, t.blk.status false))
        (exec (.write 0xA0#8) (withAgenda slaveAck held)) =
      some ((some (true, 0x00#8), (false, true)), 0xFE#8, 0x40#8) := by decide +kernel

/-- The slave of V8 that sends `0x11`: its bit 7 stands on the line before the READ. -/
def slaveSends : List Move :=
  List.replicate 20 Move.sequencer ++ [Move.environment .sda] ++ List.replicate 6 Move.sequencer ++ [Move.environment .sda] ++
    List.replicate 18 Move.sequencer ++ [Move.environment .sda]

/-- V8, with the data line high again at the end. -/
theorem test_read_ack :
    shown (fun t => (t.blk.response, t.blk.cap, t.blk.rxb))
        (exec (.readAck 0#8) (withAgenda slaveSends (withLines false true held))) =
      some (some (false, 0x11#8), 0x00#8, 0x11#8) := by decide +kernel
/-- V11: a READ without a START. -/
theorem test_read_ack_hangs :
    shown (fun t => (t.blk.upc, t.blk.outScl, t.blk.cnt, t.blk.sr)) (exec (.readAck 0#8) idle) =
      some (.transfer .t3, false, 1#4, 0xFF#8) := by decide +kernel

/-- X7. -/
theorem test_read_nack :
    shown (fun t => (t.blk.response, t.blk.cap)) (exec (.readNack 0#8) held) =
      some (some (false, 0xFF#8), 0xFF#8) := by decide +kernel
theorem test_read_nack_byte :
    shown (fun t => (t.blk.response, t.blk.cap))
        (exec (.readNack 0#8) (withAgenda slaveSends (withLines false true held))) =
      some (some (false, 0x11#8), 0xFF#8) := by decide +kernel

/-- V12. -/
theorem test_refuse_start : refusal (exec (.start 0#8) State.reset) = some (.commandBeforeInit 1#3) := by decide +kernel
theorem test_refuse_reserved :
    refusal (step { idle with script := [0x600#11] }) = some (.reservedCommand 0x600#11) := by decide +kernel
/-- R131. -/
theorem test_hang :
    fault (step { withLines true false idle with blk := { idle.blk with busy := true, upc := .start .s1 } }) =
      some (.hang (.start .s1)) := by decide +kernel

/-- ENV4 of R46 on the slaves of V4 and V8: the first accepts the byte, the second sends `0x11`. -/
theorem test_env4 :
    ((withAgenda slaveAck held).accepted (.write 0xA0#8)).env4 (.receives true) = true ∧
      ((withAgenda slaveAck held).accepted (.write 0xA0#8)).env4 (.receives false) = false ∧
      ((withAgenda slaveSends (withLines false true held)).accepted (.readAck 0#8)).env4 (.transmits 0x11#8) =
        true ∧
      ((withAgenda slaveSends (withLines false true held)).accepted (.readAck 0#8)).env4 (.transmits 0x88#8) =
        false := by decide +kernel

/-- Program C: four responses, the NACK among them. -/
theorem test_run_responses :
    (State.shows 4 { State.reset with script := [0x000#11, 0x100#11, 0x3A0#11, 0x200#11] }).responses =
      [(false, 0x00#8), (false, 0x00#8), (false, 0x00#8), (false, 0x00#8)] := by decide +kernel

/-- V3: the line states of `INIT; START; STOP` on an idle bus. -/
theorem test_run_lines :
    changesFrom (true, true) (State.shows 3 { State.reset with script := [0x000#11, 0x100#11, 0x200#11] }).lines =
      [(true, false), (false, false), (false, true), (false, false), (true, false), (true, true)] := by
  decide +kernel

/-- R62, R90: of a micro-step blocked at S1, a word presented to a busy block and the environment's release of
the clock, only the last is a step, and the line pairs show it alone. -/
theorem test_run_lines_of_steps_only :
    (State.shows 3 (withAgenda [.sequencer, .host, .environment .scl]
      (withLines true false { idle with blk := { idle.blk with busy := true, upc := .start .s1 } }))).lines =
      [(true, true)] := by decide +kernel

/-! ## States that meet the hypotheses of the statements -/

/-- A next state that shows what it should is a next state. -/
theorem next_of_shown {α : Type} {f : State → α} {o : Host.Outcome State Fault Refusal} {x : α}
    (h : shown f o = some x) : ∃ t, o = .next t ∧ f t = x := by
  cases o with
  | next t => exact ⟨t, rfl, by simpa [shown] using h⟩
  | fault r => simp [shown] at h
  | refused r => simp [shown] at h

/-- `idle` with a command in progress at a label. -/
def idleAt (l : Label) (op : Opcode) : State :=
  { idle with blk := { idle.blk with busy := true, upc := l, op := op } }

/-- A TRANSFER of a byte of WRITE at T0, with all the invariant asks. -/
def enteringByte : State :=
  { heldAt (.transfer .t0) 3#3 with
    blk := { (heldAt (.transfer .t0) 3#3).blk with tret := .w3, tw := Config.statusByteWord } }

/-- A TRANSFER of the acknowledge bit of WRITE at T0. -/
def enteringBit : State :=
  { heldAt (.transfer .t0) 3#3 with
    blk := { (heldAt (.transfer .t0) 3#3).blk with
      tret := .wFin, tw := Config.statusBitWord, dirSda := false } }

/-- A slave that holds the clock low for a while: it pulls it down before W1 and lets it go while T3 waits. -/
def stretching : List Move :=
  [Move.sequencer, .environment .scl] ++ List.replicate 9 Move.sequencer ++ [Move.environment .scl, .host, .wait]

theorem test_meets_StepRunsTheDecodedCommand :
    let s := { idle with script := [0x3A0#11, 0x200#11], agenda := [.host, .wait] }
    s.ready = true ∧ s.script = 0x3A0#11 :: [0x200#11] ∧ s.agenda = .host :: [.wait] ∧
      decode 0x3A0#11 = some (.write 0xA0#8) := by decide +kernel

theorem test_meets_StepRunsTheDecodedCommand_no_moves :
    let s := { State.reset with script := [0x0FF#11] }
    s.ready = true ∧ s.script = 0x0FF#11 :: [] ∧ s.agenda = [] ∧ decode 0x0FF#11 = some (.init 0xFF#8) := by
  decide +kernel

theorem test_meets_OtherStepsMoveOneAgent :
    (withAgenda [.environment .sda] idle).fetch = none ∧
      (withAgenda [.environment .sda] idle).agenda = .environment .sda :: [] ∧
      (idle.fetch = none ∧ idle.agenda = [] ∧ idle.blk.busy = false) ∧
      ((idleAt (.start .s1) 1#3).fetch = none ∧ (idleAt (.start .s1) 1#3).blk.busy = true ∧
        (idleAt (.start .s1) 1#3).rst = false ∧ (idleAt (.start .s1) 1#3).seqStep.isSome = true) ∧
      (withLines true false (idleAt (.start .s1) 1#3)).seqStep = none := by decide +kernel

theorem test_meets_ReservedWordsAndEarlyCommandsAreRefused :
    idle.ready = true ∧ { idle with script := [0x6FF#11] }.script = 0x6FF#11 :: [] ∧
      opcodeField 0x6FF#11 = 6#3 ∧ opcodeField 0x700#11 = 7#3 ∧
        (withAgenda [.host] idle).agenda = .host :: [] ∧
      State.reset.ready = true ∧ (Instr.start 0#8).opcode ≠ 0#3 ∧ State.reset.blk.control ≠ 0x2A#8 ∧
      idle.blk.control = 0x2A#8 := by decide +kernel

theorem test_meets_ABusyBlockAcceptsNothing :
    (withAgenda [.host] (idleAt (.start .s1) 1#3)).blk.busy = true ∧
      (withAgenda [.host] (idleAt (.start .s1) 1#3)).agenda = .host :: [] := by decide +kernel

theorem test_meets_AcceptanceLatchesTheCommand :
    State.reset.ready = true ∧ (Instr.init 0xFF#8).opcode = 0#3 ∧ idle.ready = true ∧
      idle.blk.control = 0x2A#8 := by decide +kernel

theorem test_meets_TextFormReadsBack :
    ([' ', ';', 'x'] : List Char) = ' ' :: ';' :: ['x'] ∧ ([';', 'x'] : List Char) = ';' :: ['x'] ∧
      Instr.stop 0#8 ∈ [Instr.init 0#8, .start 0#8, .stop 0#8, .readAck 0#8, .readNack 0#8] := by decide +kernel

theorem test_meets_LineUpdateFollowsTheLines :
    Block.reset.control.extractLsb' 4 2 ≠ 0b10#2 ∧ idle.blk.control.extractLsb' 4 2 = 0b10#2 ∧
      idle.blk.sclLine idle.env = true ∧ held.blk.sclLine held.env = false ∧
      ({ idle.blk with xfer := true } : Block).xfer = true ∧ idle.blk.xfer = false := by decide +kernel

theorem test_meets_ShiftRegisterLoadsAreMadeWithTheClockLow :
    let s := heldAt (.write .w1) 3#3
    let r := heldAt (.readNack .n2) 5#3
    s.blk.inv s.env = true ∧ (s.blk.seqStep s.env).isSome = true ∧ s.blk.upc = .write .w1 ∧
      r.blk.inv r.env = true ∧ (r.blk.seqStep r.env).isSome = true ∧ r.blk.upc = .readNack .n2 := by
  decide +kernel

theorem test_meets_StatusWriteClearsAndLoads :
    enteringByte.blk.busy = true ∧ enteringByte.blk.upc = .transfer .t0 ∧ enteringByte.inv = true ∧
      enteringBit.inv = true ∧ microcode (.transfer .t0) = some ⟨.beginTransfer, .transfer .t1⟩ := by
  decide +kernel

theorem test_meets_StrobeTogglesAndCounts :
    (heldAt (.transfer .t2) 3#3).blk.busy = true ∧ (heldAt (.transfer .t2) 3#3).blk.upc = .transfer .t2 ∧
      (heldAt (.transfer .t5) 3#3).blk.upc = .transfer .t5 := by decide +kernel

theorem test_meets_OutputLatchAndDirectionSteps :
    let s := idleAt (.start .s3) 1#3
    let p := idleAt (.start .s0) 1#3
    let d := heldAt (.write .w3) 3#3
    s.blk.inv s.env = true ∧ (s.blk.seqStep s.env).isSome = true ∧
      microcode s.blk.upc = some ⟨.setOut .sda false, .start .s4⟩ ∧
      p.blk.inv p.env = true ∧ (p.blk.seqStep p.env).isSome = true ∧ p.blk.outScl = true ∧
      microcode p.blk.upc = some ⟨.setOut .scl true, .start .s1⟩ ∧
      (d.blk.seqStep d.env).isSome = true ∧ microcode d.blk.upc = some ⟨.setDirSda false, .write .w4⟩ ∧
      microcode (.transfer .t10) = some ⟨.restoreAndReturn, .idle⟩ := by decide +kernel

theorem test_meets_WaitsEndOnlyWhenTheClockReadsHigh :
    let s := idleAt (.start .s1) 1#3
    let p := withLines true false (idleAt (.stop .p2) 2#3)
    let q := heldAt (.transfer .t3) 4#3
    s.rst = false ∧ s.blk.busy = true ∧ s.blk.upc = .start .s1 ∧ s.sclLine = true ∧
      p.rst = false ∧ p.blk.upc = .stop .p2 ∧ p.sclLine = false ∧ p.blk.mScl = true ∧
      q.blk.upc = .transfer .t3 ∧ q.sclLine = false ∧ q.blk.mScl = false ∧
      Move.host ≠ .environment .scl ∧ Move.host ≠ .assertReset ∧
      ((idleAt (.start .s0) 1#3).seqStep.map fun t => t.blk.upc) = some (.start .s1) := by decide +kernel

theorem test_meets_OnlyT6BranchesOnData :
    let s := heldAt (.transfer .t6) 3#3
    let r := heldAt (.transfer .t10) 3#3
    let a := heldAt (.transfer .t5) 3#3
    let k := heldAt (.write .w2) 3#3
    s.blk.busy = true ∧ s.blk.upc = .transfer .t6 ∧ (r.blk.seqStep r.env).isSome = true ∧
      (a.blk.seqStep a.env).map (fun b => b.upc) = some (.transfer .t6) ∧
      (k.blk.seqStep k.env).map (fun b => b.upc) = some (.transfer .t0) := by decide +kernel

theorem test_meets_OnlyFinEndsACommand :
    let s := heldAt (.write .wFin) 3#3
    (s.blk.seqStep s.env).map (fun b => b.busy) = some false := by decide +kernel

theorem test_meets_RegistersAreWrittenByTheirStepsAlone :
    let i := { State.reset with blk := { Block.reset with busy := true, upc := .init .i0 } }
    let w := heldAt (.write .w1) 3#3
    (i.blk.seqStep i.env).map (fun b => (b.dirScl != i.blk.dirScl, b.dirSda != i.blk.dirSda,
        b.outSda != i.blk.outSda, b.outScl != i.blk.outScl)) = some (true, true, true, true) ∧
      (w.blk.seqStep w.env).map (fun b => b.sr != w.blk.sr) = some true := by decide +kernel

theorem test_meets_LineUpdateRegistersChangeAtTheirStepsAlone :
    let s := { enteringByte with blk := { enteringByte.blk with upc := .transfer .t2, xfer := true } }
    let q := withLines false true s
    let a := idleAt (.start .s3) 1#3
    s.blk.inv s.env = true ∧ (s.blk.seqStep s.env).isSome = true ∧ s.env.scl = true ∧ s.blk.outScl = false ∧
      q.blk.inv q.env = true ∧ (q.blk.seqStep q.env).map (fun b => b.sr != q.blk.sr) = some true ∧
      a.blk.inv a.env = true ∧ (a.blk.seqStep a.env).map (fun b => b.fStart) = some true ∧
      a.blk.fStart = false ∧
      (let r := { idleAt (.transfer .t2) 4#3 with
        blk := { (idleAt (.transfer .t2) 4#3).blk with
          xfer := true, dirSda := false, tret := .a2, tw := 0xF0#8, sr := 0x7F#8 } }
       r.blk.inv r.env = true ∧ r.blk.outScl = true ∧
         (r.blk.seqStep r.env).map (fun b => (b.sdo, r.blk.sdo)) = some (false, true)) := by decide +kernel

theorem test_meets_OnlyFramingStepsMakeConditions :
    let s := idleAt (.start .s3) 1#3
    let q := { idle with blk := { idle.blk with outSda := false, busy := true, upc := .stop .p4, op := 2#3 } }
    (s.blk.inv s.env = true ∧ s.blk.sclLine s.env = true ∧
      (s.blk.seqStep s.env).map (fun b => (b.sclLine s.env, b.sdaLine s.env != s.blk.sdaLine s.env)) =
        some (true, true)) ∧
    (q.blk.inv q.env = true ∧ q.blk.sclLine q.env = true ∧
      (q.blk.seqStep q.env).map (fun b => (b.sclLine q.env, b.sdaLine q.env != q.blk.sdaLine q.env)) =
        some (true, true)) := by decide +kernel

theorem test_meets_ResetLeavesTheValuesOfTheTable :
    (withAgenda [.assertReset] (heldAt (.start .s4) 1#3)).agenda = .assertReset :: [] := by decide +kernel

theorem test_meets_EveryStepKeepsTheInvariant :
    let s := { State.reset with script := [0x000#11], agenda := [.environment .sda, .host] }
    s.inv = true ∧ ∃ t, step s = .next t ∧ t.env.sda = false := by
  exact ⟨by decide +kernel, next_of_shown (f := fun t => t.env.sda) (by decide +kernel)⟩

theorem test_meets_TheInvariantHoldsAllAlongACommand :
    idle.inv = true ∧ idle.ready = true ∧ idle.blk.control = 0x2A#8 ∧
      (idle.accepted (.start 0#8)).trail ≠ [] := by decide +kernel

theorem test_meets_RestingValuesAtCommandBoundaries :
    idle.inv = true ∧ idle.blk.busy = false ∧ idle.blk.control = 0x2A#8 ∧
      State.reset.inv = true ∧ State.reset.blk.control ≠ 0x2A#8 := by decide +kernel

theorem test_meets_InitCompletes : State.reset.ready = true ∧ State.reset.quiet = true := by decide +kernel

theorem test_meets_InitIsIdempotent :
    State.reset.ready = true ∧ State.reset.quiet = true ∧
      ∃ t, exec (.init 0xFF#8) State.reset = .next t ∧ t.completed = true :=
  ⟨by decide +kernel, by decide +kernel, next_of_shown (f := State.completed) (by decide +kernel)⟩

/-- For START, STOP, WRITE, and with the clock held low for READ_ACK and READ_NACK. -/
theorem test_meets_CommandCompletes :
    idle.atBoundary = true ∧ idle.quiet = true ∧ idle.env.scl = true ∧
      held.atBoundary = true ∧ held.quiet = true ∧ held.env.scl = true ∧ held.blk.outScl = false := by
  decide +kernel

theorem test_meets_FramingCommandsHangOnAStuckClock :
    (withLines true false held).atBoundary = true ∧ (withLines true false held).quiet = true ∧
      (withLines true false held).env.scl = false := by decide +kernel

theorem test_meets_ByteCommandsHangOnAStuckClock :
    (withLines true false held).atBoundary = true ∧ (withLines true false held).quiet = true ∧
      (withLines true false held).env.scl = false ∧ (withLines true false idle).atBoundary = true := by
  decide +kernel

theorem test_meets_InitInsideATransactionMakesNoStop :
    held.atBoundary = true ∧ held.quiet = true ∧ held.env.scl = true ∧ held.blk.outScl = false ∧
      ∃ t, exec (.init 0#8) held = .next t ∧ t.completed = true :=
  ⟨by decide +kernel, by decide +kernel, by decide +kernel, by decide +kernel,
    next_of_shown (f := State.completed) (by decide +kernel)⟩

theorem test_meets_StartThenStopRestoresTheBlock :
    idle.atBoundary = true ∧ idle.quiet = true ∧ idle.env = { sda := true, scl := true } ∧
      idle.blk.outScl = true := by decide +kernel

theorem test_meets_TransferMakesItsPulses :
    (enteringByte.rst = false ∧ enteringByte.blk.busy = true ∧ enteringByte.blk.upc = .transfer .t0 ∧
      enteringByte.blk.control = 0x2A#8 ∧ enteringByte.blk.dirScl = true ∧ enteringByte.blk.outScl = false ∧
      enteringByte.env.scl = true ∧ enteringByte.blk.tw = 0xF0#8) ∧
    (enteringBit.rst = false ∧ enteringBit.blk.busy = true ∧ enteringBit.blk.upc = .transfer .t0 ∧
      enteringBit.blk.control = 0x2A#8 ∧ enteringBit.blk.dirScl = true ∧ enteringBit.blk.outScl = false ∧
      enteringBit.env.scl = true ∧ enteringBit.blk.tw = 0xFE#8) := by decide +kernel

theorem test_meets_TransferEnteredWithTheClockReleasedHangs :
    let s := withAgenda stretching (idleAt (.transfer .t0) 4#3)
    s.rst = false ∧ s.blk.busy = true ∧ s.blk.upc = .transfer .t0 ∧ s.blk.dirScl = true ∧
      s.blk.outScl = true ∧ s.noReset = true := by decide +kernel

theorem test_meets_ReadWithoutStartHangs :
    (withAgenda stretching idle).atBoundary = true ∧ (withAgenda stretching idle).blk.outScl = true ∧
      (withAgenda stretching idle).noReset = true ∧ .assertReset ∉ stretching := by decide +kernel

/-- Every command, on a bus that stretches the clock. -/
theorem test_meets_CommandsTerminate :
    let s := withAgenda stretching held
    s.inv = true ∧ s.ready = true ∧ s.blk.control = 0x2A#8 ∧ s.blk.outScl = false ∧ s.noReset = true ∧
      ∀ i ∈ [Instr.init 0#8, .start 0#8, .stop 0#8, .write 0xA0#8, .readAck 0#8, .readNack 0#8],
        (s.accepted i).env3 = true := by decide +kernel

theorem test_meets_UnfinishedCommandsAreBlockedAtAWait :
    (withLines true false held).inv = true ∧ (withLines true false held).ready = true ∧
      (withLines true false held).noReset = true ∧
      (∃ t, exec (.start 0#8) (withLines true false held) = .next t ∧
        (t.blk.busy, t.blk.upc) = (true, .start .s1)) ∧
      (∃ t, exec (.stop 0#8) (withLines true false held) = .next t ∧
        (t.blk.busy, t.blk.upc) = (true, .stop .p2)) ∧
      (∃ t, exec (.write 0#8) (withLines true false held) = .next t ∧
        (t.blk.busy, t.blk.upc) = (true, .transfer .t3)) ∧
      idle.inv = true ∧ idle.ready = true ∧ idle.noReset = true ∧
      (∃ t, exec (.readAck 0#8) idle = .next t ∧ (t.blk.busy, t.blk.upc) = (true, .transfer .t3)) :=
  ⟨by decide +kernel, by decide +kernel, by decide +kernel,
    next_of_shown (f := fun t => (t.blk.busy, t.blk.upc)) (by decide +kernel),
    next_of_shown (f := fun t => (t.blk.busy, t.blk.upc)) (by decide +kernel),
    next_of_shown (f := fun t => (t.blk.busy, t.blk.upc)) (by decide +kernel), by decide +kernel,
    by decide +kernel, by decide +kernel,
      next_of_shown (f := fun t => (t.blk.busy, t.blk.upc)) (by decide +kernel)⟩

/-- For MicroStepsDependOnTheCommandAlone, WriteSendsItsBitsAndReturnsTheAcknowledge,
ByteCommandsKeepTheWireForm, CompletedCommandsTakeTheirLeastTime and FrameOfByteCommands: two WRITEs, one
acknowledged and one after no START. -/
theorem test_meets_WriteOnABus :
    let s := withAgenda slaveAck held
    s.inv = true ∧ s.ready = true ∧ s.noReset = true ∧ s.blk.control = 0x2A#8 ∧ s.blk.outScl = false ∧
      (s.accepted (.write 0xA0#8)).env1 = true ∧ (s.accepted (.write 0xA0#8)).env2 = true ∧
      (∃ t, exec (.write 0xA0#8) s = .next t ∧ t.completed = true) ∧
      idle.inv = true ∧ idle.ready = true ∧ idle.noReset = true ∧ idle.blk.outScl = true ∧
      idle.env.scl = true ∧ (idle.accepted (.write 0x55#8)).env1 = true ∧
      (idle.accepted (.write 0x55#8)).env2 = true ∧
      (∃ t, exec (.write 0x55#8) idle = .next t ∧ t.completed = true) :=
  ⟨by decide +kernel, by decide +kernel, by decide +kernel, by decide +kernel, by decide +kernel,
    by decide +kernel, by decide +kernel,
    next_of_shown (f := State.completed) (by decide +kernel), by decide +kernel, by decide +kernel,
    by decide +kernel, by decide +kernel, by decide +kernel, by decide +kernel, by decide +kernel,
    next_of_shown (f := State.completed) (by decide +kernel)⟩

theorem test_meets_ReadsReturnTheSampledByteAndAnswer :
    let s := withAgenda slaveSends (withLines false true held)
    s.inv = true ∧ s.ready = true ∧ s.noReset = true ∧ s.blk.control = 0x2A#8 ∧
      (s.accepted (.readAck 0#8)).env1 = true ∧ (s.accepted (.readNack 0#8)).env1 = true ∧
      (∃ t, exec (.readAck 0#8) s = .next t ∧ t.completed = true) ∧
      (∃ t, exec (.readNack 0#8) s = .next t ∧ t.completed = true) :=
  ⟨by decide +kernel, by decide +kernel, by decide +kernel, by decide +kernel, by decide +kernel,
    by decide +kernel,
    next_of_shown (f := State.completed) (by decide +kernel),
    next_of_shown (f := State.completed) (by decide +kernel)⟩

theorem test_meets_ConformingSlavesAreUnderstood :
    let s := withAgenda slaveAck held
    let q := withAgenda slaveSends (withLines false true held)
    s.inv = true ∧ s.ready = true ∧ s.blk.control = 0x2A#8 ∧ s.noReset = true ∧ s.blk.outScl = false ∧
      (s.accepted (.write 0xA0#8)).env1 = true ∧ (s.accepted (.write 0xA0#8)).env2 = true ∧
      (s.accepted (.write 0xA0#8)).env4 (.receives true) = true ∧
      (∃ t, exec (.write 0xA0#8) s = .next t ∧ t.completed = true) ∧
      q.inv = true ∧ q.ready = true ∧ q.blk.control = 0x2A#8 ∧ q.noReset = true ∧ q.blk.outScl = false ∧
      (q.accepted (.readAck 0#8)).env1 = true ∧ (q.accepted (.readAck 0#8)).env2 = true ∧
      (q.accepted (.readAck 0#8)).env4 (.transmits 0x11#8) = true ∧
      (∃ t, exec (.readAck 0#8) q = .next t ∧ t.completed = true) ∧
      idle.blk.outScl = true ∧ idle.env.scl = true :=
  ⟨by decide +kernel, by decide +kernel, by decide +kernel, by decide +kernel, by decide +kernel,
    by decide +kernel, by decide +kernel, by decide +kernel,
    next_of_shown (f := State.completed) (by decide +kernel),
    by decide +kernel, by decide +kernel, by decide +kernel, by decide +kernel, by decide +kernel,
    by decide +kernel, by decide +kernel, by decide +kernel,
    next_of_shown (f := State.completed) (by decide +kernel), by decide +kernel, by decide +kernel⟩

theorem test_meets_ConditionsAreTheFramingCommandsOwn :
    idle.inv = true ∧ idle.ready = true ∧ idle.blk.control = 0x2A#8 ∧ idle.noReset = true ∧
      (idle.accepted (.stop 0#8)).env2 = true ∧
      (conditions (idle.accepted (.stop 0#8)) (idle.accepted (.stop 0#8)).trail).length = 2 := by decide +kernel

theorem test_meets_SessionsOfTheGrammarComplete :
    sessionWf [.init 0#8, .start 0#8, .write 0xA0#8, .start 0#8, .readNack 0#8, .stop 0#8] = true := by decide +kernel

theorem test_meets_RunsShowTheirResponsesInOrder :
    let s := { State.reset with script := [0x000#11, 0x100#11] }
    let f := heldAt (.write .wFin) 3#3
    (∃ t, Host.Core.run Sys2Proof.core 2 s = .next t ∧ State.completed t = true) ∧
      s.fetch = some (0x000#11, { s with script := [0x100#11] }) ∧ decode 0x000#11 = some (.init 0x00#8) ∧
      (∃ t, step s = .next t ∧ t.completed = true) ∧
      f.fetch = none ∧ f.blk.busy = true ∧ (∃ t, step f = .next t ∧ t.completed = true) ∧
      sessionWf [.init 0#8, .start 0#8, .readNack 0#8, .stop 0#8] = true :=
  ⟨next_of_shown (f := State.completed) (by decide +kernel), by decide +kernel, by decide +kernel,
    next_of_shown (f := State.completed) (by decide +kernel), by decide +kernel, by decide +kernel,
    next_of_shown (f := State.completed) (by decide +kernel), by decide +kernel⟩

theorem test_meets_RunsAreMadeOfEnabledSteps :
    let s := { State.reset with script := [0x000#11], agenda := [.environment .sda, .host] }
    let r := { State.reset with rst := true }
    let b := idleAt (.start .s1) 1#3
    (s.runTrail 2).length = 4 ∧ s.runTrail 2 = [] ++ (s.runTrail 2).headD ⟨none, s⟩ :: (s.runTrail 2).tail ∧
      r.inv = true ∧ r.rst = true ∧ r.enabled .sequencer = false ∧
      b.blk.busy = true ∧ b.rst = false := by decide +kernel

theorem test_meets_FrameOfInit :
    held.inv = true ∧ held.noReset = true ∧ held.noEnvironment = true ∧
      ∃ t, exec (.init 0#8) held = .next t ∧ t.completed = true :=
  ⟨by decide +kernel, by decide +kernel, by decide +kernel,
    next_of_shown (f := State.completed) (by decide +kernel)⟩

theorem test_meets_FrameOfStartAndStop :
    held.inv = true ∧ held.ready = true ∧ held.noReset = true ∧ held.noEnvironment = true ∧
      held.blk.outScl = false ∧ (held.accepted (.start 0#8)).env2 = true ∧
      (held.accepted (.stop 0#8)).env2 = true ∧
      (∃ t, exec (.start 0#8) held = .next t ∧ t.completed = true) ∧
      (∃ t, exec (.stop 0#8) held = .next t ∧ t.completed = true) :=
  ⟨by decide +kernel, by decide +kernel, by decide +kernel, by decide +kernel, by decide +kernel,
    by decide +kernel, by decide +kernel,
    next_of_shown (f := State.completed) (by decide +kernel),
    next_of_shown (f := State.completed) (by decide +kernel)⟩

theorem test_meets_ResetAbandonsTheCommand :
    let s := withAgenda (List.replicate 4 Move.sequencer ++ Move.assertReset :: [.releaseReset]) held
    s.ready = true ∧ s.blk.control = 0x2A#8 ∧
      (∃ t, exec (.write 0#8) s = .next t ∧ (t.rst, t.agenda) = (true, [.releaseReset])) ∧
      (∃ t, exec (.init 0#8) s = .next t ∧ (t.completed, t.rst) = (true, false)) ∧
      (withAgenda [.assertReset] held).agenda = .assertReset :: [] :=
  ⟨by decide +kernel, by decide +kernel,
    next_of_shown (f := fun t => (t.rst, t.agenda)) (by decide +kernel),
    next_of_shown (f := fun t => (t.completed, t.rst)) (by decide +kernel), by decide +kernel⟩

theorem test_meets_AssertedResetHoldsTheMachine :
    (withAgenda [.sequencer] { State.reset with rst := true }).rst = true ∧
      (withAgenda [.releaseReset] State.reset).agenda = .releaseReset :: [] ∧
      Move.sequencer ≠ .assertReset ∧ Move.sequencer ≠ .releaseReset := by decide +kernel

theorem test_meets_EnvironmentAtABoundarySetsFlagsOnly :
    idle.inv = true ∧ idle.rst = false ∧ idle.blk.busy = false ∧
      idle.blk.control = 0x2A#8 := by decide +kernel

theorem test_meets_TheResponseStaysUntilTheNextCommand :
    let s := withAgenda [.environment .sda] { idle with blk := { idle.blk with rspValid := true, rspAck := true } }
    s.blk.busy = false ∧ s.fetch = none ∧ s.agenda.head? ≠ some .assertReset ∧
      ∃ t, step s = .next t ∧ t.blk.fStart = true :=
  ⟨by decide +kernel, by decide +kernel, by decide +kernel,
    next_of_shown (f := fun t => t.blk.fStart) (by decide +kernel)⟩

theorem test_meets_HostMovesDoNotDisturbACommand :
    ∃ t, exec (.write 0xA0#8) (withAgenda stretching held) = .next t ∧ t.completed = true :=
  next_of_shown (f := State.completed) (by decide +kernel)

end Sys2Proof.Tests
end

section
/-! SUPPORT. A step that accepts no word, by the agenda and the command in progress (R6, R80, R131, R141). -/

namespace Sys2Proof.Machine

/-- With reset released the machine's micro-step is the block's (R80, R150). -/
theorem State.seqStep_of_released {s : State} (hr : s.rst = false) :
    s.seqStep = (s.blk.seqStep s.env).map fun b => { s with blk := b } := by
  simp [State.seqStep, hr]

theorem step_of_fetch_none {s : State} (hf : s.fetch = none) : step s = s.advance := by
  simp [step, hf]

theorem State.advance_of_agenda_cons {s : State} {m : Move} {ms : List Move} (ha : s.agenda = m :: ms) :
    s.advance = .next ({ s with agenda := ms }.move m) := by
  simp [State.advance, ha]

theorem State.advance_of_not_busy {s : State} (ha : s.agenda = []) (hb : s.blk.busy = false) :
    s.advance = .next s := by
  simp [State.advance, ha, hb]

theorem State.advance_of_seqStep_some {s t : State} (ha : s.agenda = []) (ht : s.seqStep = some t) :
    s.advance = .next t := by
  obtain ⟨hr, b, hb, -⟩ := State.seqStep_some ht
  have hbusy : s.blk.busy = true := (Block.seqStep_some hb).1
  simp [State.advance, ha, hr, hbusy, ht]

theorem State.advance_of_hang {s : State} (ha : s.agenda = []) (hb : s.blk.busy = true)
    (hr : s.rst = false) (hn : s.seqStep = none) : s.advance = .fault (.hang s.blk.upc) := by
  simp [State.advance, ha, hb, hr, hn]

/-- Settles O2: each clause is one branch of `State.advance`. -/
theorem otherStepsMoveOneAgent : Obligations.OtherStepsMoveOneAgent := by
  intro s hf
  rw [step_of_fetch_none hf]
  refine ⟨fun m ms ha => State.advance_of_agenda_cons ha, State.advance_of_not_busy,
    fun ha hb hr => ⟨fun b hs => ?_, fun hs => ?_⟩⟩
  · exact State.advance_of_seqStep_some ha (by simp [State.seqStep_of_released hr, hs])
  · exact State.advance_of_hang ha hb hr (by simp [State.seqStep_of_released hr, hs])

end Sys2Proof.Machine
end

section
/-! SUPPORT. The events of a run are steps: the acceptance of a word, or a move enabled where the events before
it lead (R6, R166). -/

namespace Sys2Proof.Machine

/-! ## Which moves are enabled -/

theorem State.enabled_sequencer_iff {s : State} (hr : s.rst = false) :
    s.enabled .sequencer = true ↔ (s.blk.seqStep s.env).isSome = true := by
  simp [State.enabled, State.seqStep_of_released hr]

@[simp] theorem State.enabled_host (s : State) : s.enabled .host = false := rfl

@[simp] theorem State.enabled_wait (s : State) : s.enabled .wait = false := rfl

theorem State.enabled_environment_iff (l : Line) (s : State) :
    s.enabled (.environment l) = true ↔ s.rst = false := by
  simp [State.enabled]

/-- A read is enabled where the host reads something (R65, R66, R165). -/
theorem State.enabled_readResponse_iff {s : State} (hr : s.rst = false) :
    s.enabled .readResponse = true ↔ s.blk.response.isSome = true := by
  cases hv : s.blk.rspValid <;> simp [State.enabled, Block.response, hr, hv]

theorem State.enabled_assertReset {s : State} (hr : s.rst = false) : s.enabled .assertReset = true := by
  simp [State.enabled, hr]

theorem State.enabled_releaseReset (s : State) : s.enabled .releaseReset = s.rst := rfl

/-- Under the invariant a block whose reset is asserted is in the reset state (R150). -/
theorem State.blk_of_inv_of_rst {s : State} (hi : s.inv = true) (hr : s.rst = true) :
    s.blk = Block.reset := by
  simp only [State.inv, hr, Bool.not_true, Bool.false_or, Bool.and_eq_true, beq_iff_eq] at hi
  exact hi.2

/-- While reset is asserted its release alone is enabled (R150). -/
theorem State.enabled_iff_of_rst {s : State} {m : Move} (hr : s.rst = true) (hb : s.blk = Block.reset) :
    s.enabled m = true ↔ m = .releaseReset := by
  cases m with
  | sequencer => simp [State.enabled, State.seqStep, hr]
  | environment l => simp [State.enabled, hr]
  | host => simp
  | readResponse => simp [State.enabled, hr]
  | wait => simp
  | assertReset => simp [State.enabled, hr, hb]
  | releaseReset => simp [State.enabled, hr]

/-! ## Events that are steps -/

/-- The event is the acceptance, in a machine like `s` but for its agenda, of the next word of the script
(R62, R63). -/
def Event.Accepts (s : State) (e : Event) : Prop :=
  ∃ (w : CmdWord) (i : Instr) (ws : List CmdWord) (a : List Move),
    s.ready = true ∧ s.script = w :: ws ∧ decode w = some i ∧
      (i.opcode = 0#3 ∨ s.blk.control = 0x2A#8) ∧
      e = ⟨none, { s with script := ws, agenda := a }.accepted i⟩

/-- The event is a move enabled in `s` (R6); what is planned after it may be anything. -/
def Event.Moves (s : State) (e : Event) : Prop :=
  ∃ (m : Move) (a : List Move), s.enabled m = true ∧
    e = ⟨s.performs m, { s with agenda := a }.move m⟩

/-- Every event of the list is a step in the state the events before it lead to. -/
def StepsFrom : State → List Event → Prop
  | _, [] => True
  | s, e :: es => (e.Accepts s ∨ e.Moves s) ∧ StepsFrom e.after es

@[simp] theorem stepsFrom_nil (s : State) : StepsFrom s [] := trivial

theorem stepsFrom_cons {s : State} {e : Event} {es : List Event} :
    StepsFrom s (e :: es) ↔ (e.Accepts s ∨ e.Moves s) ∧ StepsFrom e.after es := Iff.rfl

theorem stepsFrom_append {s : State} {es fs : List Event} :
    StepsFrom s (es ++ fs) ↔ StepsFrom s es ∧ StepsFrom (lastState s es) fs := by
  induction es generalizing s with
  | nil => simp
  | cons e es ih => simp only [List.cons_append, stepsFrom_cons, ih, lastState_cons, and_assoc]

/-- Which micro-step a move performs does not depend on what is planned after it. -/
@[simp] theorem State.performs_agenda (m : Move) (a : List Move) (s : State) :
    State.performs m { s with agenda := a } = s.performs m := by
  cases m with
  | sequencer =>
    have hq : (State.seqStep { s with agenda := a }).isSome = s.seqStep.isSome :=
      State.enabled_agenda .sequencer a s
    simp only [State.performs, hq]
  | environment _ => rfl
  | host => rfl
  | readResponse => rfl
  | wait => rfl
  | assertReset => rfl
  | releaseReset => rfl

/-- Which lists of events are steps does not depend on the agenda they start with (log 2). -/
theorem stepsFrom_agenda {a : List Move} {s : State} {es : List Event} :
    StepsFrom { s with agenda := a } es ↔ StepsFrom s es := by
  cases es with
  | nil => exact Iff.rfl
  | cons e es =>
    have hm : e.Moves { s with agenda := a } ↔ e.Moves s := by
      simp only [Event.Moves, State.enabled_agenda, State.performs_agenda]
    exact and_congr (or_congr Iff.rfl hm) Iff.rfl

/-! ## The events of a command, of a step and of a run -/

theorem Event.moves_of_seqStep {s t : State} (h : s.seqStep = some t) :
    Event.Moves s ⟨some s.blk.upc, t⟩ :=
  ⟨.sequencer, s.agenda, by simp [State.enabled, h], by simp [State.performs, State.move, h]⟩

theorem State.trailQuiet_steps (n : Nat) (s : State) : StepsFrom s (s.trailQuiet n) := by
  induction n generalizing s with
  | zero => exact stepsFrom_nil s
  | succ n ih =>
    unfold State.trailQuiet
    split
    · exact stepsFrom_nil s
    · next t ht => exact ⟨.inr (Event.moves_of_seqStep ht), ih t⟩

/-- The event of a move is a step where there is one; where there is none the move has changed nothing. -/
theorem State.eventOf_steps {m : Move} {a : List Move} {s : State} {es : List Event}
    (h : StepsFrom ({ s with agenda := a }.move m) es) : StepsFrom s (s.eventOf m a ++ es) := by
  unfold State.eventOf
  cases he : s.enabled m with
  | true => exact ⟨.inr ⟨m, a, he, rfl⟩, h⟩
  | false =>
    rw [State.move_of_not_enabled (by simpa using he)] at h
    exact stepsFrom_agenda.mp h

theorem State.trailAgenda_steps (ms : List Move) (s : State) : StepsFrom s (State.trailAgenda ms s) := by
  induction ms generalizing s with
  | nil => exact State.trailQuiet_steps _ s
  | cons m ms ih =>
    unfold State.trailAgenda
    split
    · exact State.eventOf_steps (ih _)
    · exact stepsFrom_nil s

/-- A word fetched whose command runs is accepted, and the event is its acceptance (R62, R63). -/
theorem Event.accepts_of_fetch {s u t : State} {w : CmdWord} {i : Instr}
    (hf : s.fetch = some (w, u)) (hd : decode w = some i) (he : exec i u = .next t) :
    Event.Accepts s ⟨none, u.accepted i⟩ := by
  obtain ⟨hr, ws, hs, hu⟩ := State.fetch_some hf
  obtain ⟨a, rfl⟩ : ∃ a, u = { s with script := ws, agenda := a } := by
    rcases hu with ⟨-, rfl⟩ | ⟨ms, -, rfl⟩
    · exact ⟨s.agenda, rfl⟩
    · exact ⟨ms, rfl⟩
  rcases exec_next he with ⟨hn, -⟩ | ⟨-, hc, -⟩
  · exact absurd (hr.symm.trans hn) (by decide)
  · exact ⟨w, i, ws, a, hr, hs, hd, hc, rfl⟩

/-- The events of a step, whatever it answers, are steps: none, where it stops. -/
theorem State.stepTrail_steps (s : State) : StepsFrom s s.stepTrail := by
  unfold State.stepTrail
  split
  · next w u hf =>
    split
    · next i hd =>
      split
      · next t he => exact ⟨.inl (Event.accepts_of_fetch hf hd he), State.trailAgenda_steps _ _⟩
      · exact stepsFrom_nil s
      · exact stepsFrom_nil s
    · exact stepsFrom_nil s
  · split
    · next m ms _ =>
      rw [← List.append_nil (s.eventOf m ms)]
      exact State.eventOf_steps (stepsFrom_nil _)
    · split
      · next t ht => exact ⟨.inr (Event.moves_of_seqStep ht), stepsFrom_nil t⟩
      · exact stepsFrom_nil s

theorem State.runTrail_steps (n : Nat) (s : State) : StepsFrom s (s.runTrail n) := by
  induction n generalizing s with
  | zero => exact stepsFrom_nil s
  | succ n ih =>
    cases h : step s with
    | next t =>
      have ht : { lastState s s.stepTrail with agenda := t.agenda } = t := State.stepTrail_last h
      have hrest : StepsFrom { lastState s s.stepTrail with agenda := t.agenda } (t.runTrail n) :=
        ht.symm ▸ ih t
      rw [State.runTrail_succ h]
      exact stepsFrom_append.mpr ⟨State.stepTrail_steps s, stepsFrom_agenda.mp hrest⟩
    | fault r => simpa [State.runTrail, h] using State.stepTrail_steps s
    | refused r => simpa [State.runTrail, h] using State.stepTrail_steps s

/-- Settles O52: the events of a run by induction over its steps and the moves inside them, the enabled moves
one by one. -/
theorem runsAreMadeOfEnabledSteps : Obligations.RunsAreMadeOfEnabledSteps := by
  refine ⟨fun n s es fs e h => ?_, fun s m => ⟨State.move_of_not_enabled, fun hi hr => ?_,
    fun _ hr => State.enabled_sequencer_iff hr, State.enabled_host s, State.enabled_wait s,
    fun l => State.enabled_environment_iff l s, State.enabled_readResponse_iff, fun hr => ?_⟩⟩
  · have hsteps : StepsFrom s (es ++ e :: fs) := h ▸ State.runTrail_steps n s
    obtain ⟨-, he, -⟩ := stepsFrom_append.mp hsteps
    exact he
  · exact State.enabled_iff_of_rst hr (State.blk_of_inv_of_rst hi hr)
  · exact ⟨State.enabled_assertReset hr, (State.enabled_releaseReset s).trans hr⟩

end Sys2Proof.Machine
end

section
/-! SUPPORT. A micro-step in its two phases: the writes of its operation, then the line update; and which label
makes which writes (R80, R81). -/

namespace Sys2Proof.Machine

/-- Phase 1 of a micro-operation whose successor is `next`: its own writes, `UPC` among them (R81). -/
@[simp] def MicroOp.writes (next : Label) (b : Block) : MicroOp → Block
  | .configure => b.configure.goto next
  | .setOut line v => (b.setOut line v).goto next
  | .setDirSda v => (b.setDirSda v).goto next
  | .loadSr v => (b.loadSr v).goto next
  | .loadArg => (b.loadSr b.dataOperand).goto next
  | .saveAndLoad v => (b.saveAndLoad v).goto next
  | .beginTransfer => b.beginTransfer.goto next
  | .strobe => b.strobeTc.goto next
  | .waitScl => b.goto next
  | .delay _ => b.goto next
  | .branchOvf taken => b.goto (if b.fOvf then taken else next)
  | .capture => b.capture.goto next
  | .restoreAndReturn => (b.setDirSda true).goto b.tret.toLabel
  | .call w ret => b.call w ret
  | .fin r => b.fin r

/-- The operations with a phase 2: all but I0 and FIN (R81). -/
@[simp] def MicroOp.updatesLines : MicroOp → Bool
  | .configure => false
  | .fin _ => false
  | _ => true

/-- Only I0 and FIN have no phase 2 (R81). -/
theorem MicroOp.updatesLines_eq_false {op : MicroOp} :
    op.updatesLines = false ↔ op = .configure ∨ ∃ r, op = .fin r := by
  cases op <;> simp

/-- The block after phase 1 of the micro-step at `UPC`. -/
def MicroStep.writes (b : Block) (m : MicroStep) : Block := m.op.writes m.next b

@[simp] theorem MicroStep.writes_mk (b : Block) (op : MicroOp) (next : Label) :
    MicroStep.writes b ⟨op, next⟩ = op.writes next b := rfl

/-- A micro-operation that is not blocked makes its writes and then, unless it is I0 or FIN, the line update
(R81, R90). -/
theorem MicroOp.perform_some {e : Env} {next : Label} {b b' : Block} {op : MicroOp}
    (h : op.perform e next b = some b') :
    (op = .waitScl → b.sclLine e = true) ∧
      b' = if op.updatesLines then (op.writes next b).lineUpdate e (b.sclLine e) (b.sdaLine e)
        else op.writes next b := by
  cases op with
  | waitScl =>
    by_cases hs : b.sclLine e
    · simp only [MicroOp.perform, hs, if_true, Option.some.injEq] at h
      exact ⟨fun _ => hs, h.symm⟩
    · simp [MicroOp.perform, hs] at h
  | _ =>
    simp only [MicroOp.perform, Option.some.injEq] at h
    exact ⟨by simp, h.symm⟩

/-- A micro-step taken, by its two phases: the writes of the micro-step at `UPC`, then, unless it is I0 or a FIN,
the line update (R80, R81). -/
theorem Block.seqStep_phases {e : Env} {b b' : Block} (h : b.seqStep e = some b') :
    ∃ m, microcode b.upc = some m ∧ (m.op = .waitScl → b.sclLine e = true) ∧
      b' = if m.op.updatesLines then (m.writes b).lineUpdate e (b.sclLine e) (b.sdaLine e)
        else m.writes b := by
  obtain ⟨-, m, hm, hp⟩ := Block.seqStep_some h
  exact ⟨m, hm, MicroOp.perform_some hp⟩

/-- `c` differs from `b` at most in the four registers of the line update: `SR`, `SDO`, `F_START`, `F_STOP` (R84). -/
structure Block.AgreesButLines (b c : Block) : Prop where
  dirSda : c.dirSda = b.dirSda
  dirScl : c.dirScl = b.dirScl
  outSda : c.outSda = b.outSda
  outScl : c.outScl = b.outScl
  cnt : c.cnt = b.cnt
  fOvf : c.fOvf = b.fOvf
  fColl : c.fColl = b.fColl
  control : c.control = b.control
  xfer : c.xfer = b.xfer
  busy : c.busy = b.busy
  op : c.op = b.op
  arg : c.arg = b.arg
  upc : c.upc = b.upc
  tret : c.tret = b.tret
  tw : c.tw = b.tw
  cap : c.cap = b.cap
  rxb : c.rxb = b.rxb
  rspValid : c.rspValid = b.rspValid
  rspAck : c.rspAck = b.rspAck
  rspData : c.rspData = b.rspData

theorem Block.lineUpdate_agrees (e : Env) (scl0 sda0 : Level) (b : Block) :
    b.AgreesButLines (b.lineUpdate e scl0 sda0) := by
  constructor <;> simp

/-- What phase 1 of a micro-step writes is what the step leaves, but for the line update (R81, R84). -/
theorem Block.seqStep_agrees {e : Env} {b b' : Block} (h : b.seqStep e = some b') :
    ∃ m, microcode b.upc = some m ∧ (m.writes b).AgreesButLines b' := by
  obtain ⟨m, hm, -, rfl⟩ := Block.seqStep_phases h
  refine ⟨m, hm, ?_⟩
  split
  · exact Block.lineUpdate_agrees _ _ _ _
  · constructor <;> rfl

/-- The split of a fact about the micro-program into its seven tables (R110 to R112, R120 to R122, R95). -/
theorem microcode_cases {P : ∀ l m, microcode l = some m → Prop}
    (init : ∀ l, P (.init l) (initProgram l) rfl) (start : ∀ l, P (.start l) (startProgram l) rfl)
    (stop : ∀ l, P (.stop l) (stopProgram l) rfl) (write : ∀ l, P (.write l) (writeProgram l) rfl)
    (readAck : ∀ l, P (.readAck l) (readAckProgram l) rfl)
    (readNack : ∀ l, P (.readNack l) (readNackProgram l) rfl)
    (transfer : ∀ l, P (.transfer l) (transferProgram l) rfl) (l : Label) (m : MicroStep)
    (h : microcode l = some m) : P l m h := by
  cases l with
  | idle => simp [microcode] at h
  | init l => obtain rfl := Option.some.inj h; exact init l
  | start l => obtain rfl := Option.some.inj h; exact start l
  | stop l => obtain rfl := Option.some.inj h; exact stop l
  | write l => obtain rfl := Option.some.inj h; exact write l
  | readAck l => obtain rfl := Option.some.inj h; exact readAck l
  | readNack l => obtain rfl := Option.some.inj h; exact readNack l
  | transfer l => obtain rfl := Option.some.inj h; exact transfer l

/-- Only I0 configures the block. -/
theorem microcode_configure {l : Label} {m : MicroStep} (h : microcode l = some m) :
    m.op = .configure ↔ l = .init .i0 := by
  cases l, m, h using microcode_cases with
  | init l => cases l <;> simp [initProgram]
  | start l => cases l <;> simp [startProgram]
  | stop l => cases l <;> simp [stopProgram]
  | write l => cases l <;> simp [writeProgram]
  | readAck l => cases l <;> simp [readAckProgram]
  | readNack l => cases l <;> simp [readNackProgram]
  | transfer l => cases l <;> simp [transferProgram]

end Sys2Proof.Machine
end

section
/-! SUPPORT. Which micro-step writes which register (R11 to R28). -/

namespace Sys2Proof.Machine

/-- The registers of `c` that differ from those of `b` are the ones phase 1 of the micro-step at `b`'s label writes
(R110 to R112, R120 to R122, R95). -/
structure Block.WrittenFrom (b c : Block) : Prop where
  configured : c.dirScl ≠ b.dirScl ∨ c.control ≠ b.control ∨ c.fColl ≠ b.fColl → b.upc = .init .i0
  dirSda : c.dirSda ≠ b.dirSda →
    b.upc = .init .i0 ∨ b.upc = .write .w3 ∨ b.upc = .readAck .a0 ∨ b.upc = .readNack .n0 ∨
      b.upc = .transfer .t10
  outSda : c.outSda ≠ b.outSda →
    b.upc = .init .i0 ∨ b.upc = .start .s3 ∨ b.upc = .start .s6 ∨ b.upc = .stop .p0 ∨ b.upc = .stop .p4
  outScl : c.outScl ≠ b.outScl →
    b.upc = .init .i0 ∨ b.upc = .start .s0 ∨ b.upc = .start .s5 ∨ b.upc = .stop .p1 ∨
      b.upc = .write .w0 ∨ b.upc = .transfer .t2 ∨ b.upc = .transfer .t5
  counter : c.cnt ≠ b.cnt ∨ c.fOvf ≠ b.fOvf →
    b.upc = .init .i0 ∨ b.upc = .transfer .t0 ∨ b.upc = .transfer .t2 ∨ b.upc = .transfer .t5
  sr : c.sr ≠ b.sr →
    b.upc = .init .i0 ∨ b.upc = .write .w1 ∨ b.upc = .readAck .a2 ∨ b.upc = .readNack .n2 ∨
      b.upc = .transfer .t9
  sdo : c.sdo ≠ b.sdo → b.upc = .init .i0
  fStart : c.fStart ≠ b.fStart → b.upc = .init .i0 ∨ b.upc = .transfer .t0
  fStop : c.fStop ≠ b.fStop → b.upc = .init .i0 ∨ b.upc = .transfer .t0
  noFlagSet : (c.fStart = true → b.fStart = true) ∧ (c.fStop = true → b.fStop = true)
  xfer : c.xfer ≠ b.xfer → b.upc = .init .i0 ∨ b.upc = .transfer .t0 ∨ b.upc = .transfer .t8
  called : c.tret ≠ b.tret ∨ c.tw ≠ b.tw →
    b.upc = .write .w2 ∨ b.upc = .write .w4 ∨ b.upc = .readAck .a1 ∨ b.upc = .readAck .a3 ∨
      b.upc = .readNack .n1 ∨ b.upc = .readNack .n3
  cap : c.cap ≠ b.cap → b.upc = .transfer .t8
  rxb : c.rxb ≠ b.rxb → b.upc = .readAck .a2 ∨ b.upc = .readNack .n2
  response : c.rspValid ≠ b.rspValid ∨ c.rspAck ≠ b.rspAck ∨ c.rspData ≠ b.rspData → c.busy = false
  busy : c.busy ≠ b.busy → c.rspValid = true ∧
    (b.upc = .init .iFin ∨ b.upc = .start .sFin ∨ b.upc = .stop .pFin ∨ b.upc = .write .wFin ∨
      b.upc = .readAck .aFin ∨ b.upc = .readNack .nFin)
  upc : c.upc ≠ b.upc
  op : c.op = b.op
  arg : c.arg = b.arg

theorem RetLabel.toLabel_ne_transfer (r : RetLabel) (l : TransferLabel) : r.toLabel ≠ .transfer l := by
  cases r <;> simp [RetLabel.toLabel]

theorem MicroStep.writes_writtenFrom {b : Block} {m : MicroStep} (hm : microcode b.upc = some m) :
    b.WrittenFrom (m.writes b) := by
  generalize hu : b.upc = l at hm
  cases l, m, hm using microcode_cases with
  | init l => cases l <;> constructor <;> simp [hu, initProgram]
  | start l => cases l <;> constructor <;> simp [hu, startProgram]
  | stop l => cases l <;> constructor <;> simp [hu, stopProgram]
  | write l => cases l <;> constructor <;> simp [hu, writeProgram]
  | readAck l => cases l <;> constructor <;> simp [hu, readAckProgram]
  | readNack l => cases l <;> constructor <;> simp [hu, readNackProgram]
  | transfer l =>
    cases l with
    | t6 => cases hf : b.fOvf <;> constructor <;> simp [hu, hf, transferProgram]
    | t10 => constructor <;> simp [hu, transferProgram, RetLabel.toLabel_ne_transfer]
    | _ => constructor <;> simp +contextual [hu, transferProgram]

/-- The micro-steps that can move the clock line: those that write its direction or its latch (R11, R12, R41). -/
theorem MicroStep.writes_sclLine {e : Env} {b : Block} {m : MicroStep} (hm : microcode b.upc = some m)
    (h : (m.writes b).sclLine e ≠ b.sclLine e) :
    b.upc = .init .i0 ∨ b.upc = .start .s0 ∨ b.upc = .start .s5 ∨ b.upc = .stop .p1 ∨
      b.upc = .write .w0 ∨ b.upc = .transfer .t2 ∨ b.upc = .transfer .t5 := by
  have hc := MicroStep.writes_writtenFrom hm
  by_cases hd : (m.writes b).dirScl = b.dirScl
  · exact hc.outScl fun ho => h (Block.sclLine_congr hd ho)
  · exact .inl (hc.configured (.inl hd))

/-- The line update changes `SR` only on a rising edge of the clock line with `XFER = 1` (R83, R84). -/
theorem Block.lineUpdate_sr_ne {e : Env} {scl0 sda0 : Level} {b : Block}
    (h : (b.lineUpdate e scl0 sda0).sr ≠ b.sr) :
    scl0 = false ∧ b.sclLine e = true ∧ b.xfer = true ∧ (b.lineUpdate e scl0 sda0).sr = shiftIn b.sr sda0 := by
  rw [Block.lineUpdate_sr] at h ⊢
  split at h
  · next hs =>
    have hshift := hs
    simp only [Bool.and_eq_true, Bool.not_eq_true'] at hshift
    obtain ⟨-, ⟨hlow, hhigh⟩, hx⟩ := hshift
    exact ⟨hlow, hhigh, hx, if_pos hs⟩
  · exact absurd rfl h

/-- A micro-step changes `SR` only by a load, or by a shift while `XFER = 1` (R14, R83). -/
theorem Block.seqStep_sr {e : Env} {b b' : Block} (h : b.seqStep e = some b') (hne : b'.sr ≠ b.sr) :
    b.upc = .init .i0 ∨ b.upc = .write .w1 ∨ b.upc = .readAck .a2 ∨ b.upc = .readNack .n2 ∨
      b.upc = .transfer .t9 ∨ b.xfer = true := by
  obtain ⟨m, hm, -, rfl⟩ := Block.seqStep_phases h
  have hc := MicroStep.writes_writtenFrom hm
  by_cases hsr : (m.writes b).sr = b.sr
  · split at hne
    · obtain ⟨hlow, hhigh, hx, -⟩ := Block.lineUpdate_sr_ne (hsr ▸ hne)
      have hclk := MicroStep.writes_sclLine (e := e) hm (by simp [hlow, hhigh])
      cases hbx : b.xfer with
      | true => simp
      | false =>
        have hset := hc.xfer (by simp [hx, hbx])
        grind
    · exact absurd hsr hne
  · have hload := hc.sr hsr
    grind

/-- Settles O18: phase 1 writes them all, but for the shifts of `SR` in the line update. -/
theorem registersAreWrittenByTheirStepsAlone : Obligations.RegistersAreWrittenByTheirStepsAlone := by
  intro e b b' h
  obtain ⟨m, hm, ha⟩ := Block.seqStep_agrees h
  have hc := MicroStep.writes_writtenFrom hm
  simp only [ha.dirSda, ha.dirScl, ha.outSda, ha.outScl, ha.cnt, ha.fOvf, ha.fColl, ha.control, ha.xfer, ha.busy,
    ha.op, ha.arg, ha.tret, ha.tw, ha.cap, ha.rxb, ha.rspValid, ha.rspAck, ha.rspData]
  exact ⟨hc.configured, hc.dirSda, hc.outSda, hc.outScl, hc.counter, Block.seqStep_sr h, hc.xfer, hc.called,
    hc.cap, hc.rxb, hc.response, hc.op, hc.arg⟩

end Sys2Proof.Machine
end

section
/-! SUPPORT. The invariant (R22 to R26, R32): it is met at reset, and every micro-step, every step of the environment,
every acceptance and reset keep it. -/

namespace Sys2Proof.Machine

/-! ## The invariant, taken apart -/

/-- The invariant before the first INIT has run: the block is disabled, drives nothing, and is at rest or about to
configure (R63, R150). -/
structure Block.Unconfigured (b : Block) : Prop where
  busy : b.busy = (b.upc != .idle)
  xfer : b.xfer = b.upc.shifting
  control : b.control = 0x00#8
  upc : b.upc = .idle ∨ (b.upc = .init .i0 ∧ b.op = 0#3)
  dirSda : b.dirSda = false
  dirScl : b.dirScl = false

/-- The part of the invariant after the first INIT that does not speak of the lines (R11, R22 to R24, R32). -/
structure Block.Shaped (b : Block) : Prop where
  busy : b.busy = (b.upc != .idle)
  xfer : b.xfer = b.upc.shifting
  control : b.control = Config.controlWord
  dirScl : b.dirScl = true
  shape : b.shape = true

/-- The latch is transparent while the clock line reads low (R15). -/
def Block.Latched (e : Env) (b : Block) : Prop := b.sclLine e = true ∨ b.sdo = b.sr.getLsbD 7

theorem Block.inv_iff {e : Env} {b : Block} :
    b.inv e = true ↔ b.Unconfigured ∨ (b.Shaped ∧ b.Latched e) := by
  simp only [Block.inv, Bool.and_eq_true, Bool.or_eq_true, beq_iff_eq, Bool.not_eq_true', Block.Latched]
  constructor
  · rintro ⟨⟨hb, hx⟩, ⟨⟨⟨hc, hu⟩, hd⟩, hs⟩ | ⟨⟨⟨hc, hd⟩, hl⟩, hs⟩⟩
    · exact .inl ⟨hb, hx, hc, hu, hd, hs⟩
    · exact .inr ⟨⟨hb, hx, hc, hd, hs⟩, hl⟩
  · rintro (⟨hb, hx, hc, hu, hd, hs⟩ | ⟨⟨hb, hx, hc, hd, hs⟩, hl⟩)
    · exact ⟨⟨hb, hx⟩, .inl ⟨⟨⟨hc, hu⟩, hd⟩, hs⟩⟩
    · exact ⟨⟨hb, hx⟩, .inr ⟨⟨⟨hc, hd⟩, hl⟩, hs⟩⟩

theorem Block.shaped_of_control {e : Env} {b : Block} (h : b.inv e = true)
    (hc : b.control = Config.controlWord) : b.Shaped ∧ b.Latched e :=
  (Block.inv_iff.mp h).resolve_left fun hu => absurd (hu.control.symm.trans hc) (by decide)

/-! ## The line update keeps the invariant -/

/-- Whatever the line update finds, it leaves the latch at the new `SR[7]` or closed (R15, R84). -/
theorem Block.lineUpdate_latched {e : Env} {scl0 sda0 : Level} {b : Block} (h : b.twm = true) :
    (b.lineUpdate e scl0 sda0).Latched e := by
  cases hs : b.sclLine e <;>
    simp [Block.Latched, Block.lineUpdate_sr, Block.lineUpdate_sdo, h, hs]

theorem Block.lineUpdate_sdo_of_idleHigh {e : Env} {scl0 sda0 : Level} {b : Block}
    (hr : b.sr = Config.idleHigh) (hd : b.sdo = true) : (b.lineUpdate e scl0 sda0).sdo = true := by
  rw [Block.lineUpdate_sdo, hr, hd]
  split <;> rfl

/-- The line update leaves the shape of the label: where the shape names `SR` nothing shifts, and where it names `SDO`
the latch takes the 1 of the idle-high pattern (R14, R15, R23). -/
theorem Block.lineUpdate_shape {e : Env} {scl0 sda0 : Level} {b : Block} (hx : b.xfer = b.upc.shifting)
    (hs : b.shape = true) : (b.lineUpdate e scl0 sda0).shape = true := by
  have hsr : b.upc.shifting = false → (b.lineUpdate e scl0 sda0).sr = b.sr := by
    intro h
    simp [Block.lineUpdate_sr, hx.trans h]
  have hsdo := Block.lineUpdate_sdo_of_idleHigh (e := e) (scl0 := scl0) (sda0 := sda0) (b := b)
  unfold Block.shape at hs ⊢
  simp only [Block.settled, Block.transferSetUp, Block.clockHeldLow, Block.counting,
    Block.lineUpdate_frame] at hs ⊢
  split at hs <;> simp_all [Label.shifting]

theorem Block.Shaped.lineUpdate {e : Env} {scl0 sda0 : Level} {b : Block} (h : b.Shaped) :
    (b.lineUpdate e scl0 sda0).Shaped ∧ (b.lineUpdate e scl0 sda0).Latched e := by
  refine ⟨⟨?_, ?_, ?_, ?_, Block.lineUpdate_shape h.xfer h.shape⟩,
    Block.lineUpdate_latched (Block.twm_of_control h.control)⟩
  · simpa using h.busy
  · simpa using h.xfer
  · simpa using h.control
  · simpa using h.dirScl

theorem Block.Unconfigured.lineUpdate {e : Env} {scl0 sda0 : Level} {b : Block} (h : b.Unconfigured) :
    b.lineUpdate e scl0 sda0 = b :=
  Block.lineUpdate_off (Block.twm_of_disabled h.control)

/-- A line update from any levels, in any environment, keeps the invariant and sets the latch for that
environment (R45, R84). -/
theorem Block.inv_lineUpdate {e e' : Env} {scl0 sda0 : Level} {b : Block} (h : b.inv e = true) :
    (b.lineUpdate e' scl0 sda0).inv e' = true := by
  rw [Block.inv_iff] at h ⊢
  rcases h with h | ⟨h, -⟩
  · left
    rw [h.lineUpdate]
    exact h
  · exact .inr h.lineUpdate

/-! ## A micro-step keeps the invariant -/

/-- The first strobe of a pulse, at an even count: no wrap, and the count stays in its range (R89, R96). -/
theorem Block.counting_succ_of_even {b : Block} (h : b.counting false = true) :
    b.strobeTc.counting true = true ∧ b.cnt ≠ 15#4 := by
  have hcnt : ∀ c : Count, c.getLsbD 0 = false →
      (c + 1#4).getLsbD 0 = true ∧ c ≠ 15#4 ∧ (14#4 ≤ c → 14#4 ≤ c + 1#4) := by decide
  simp only [Block.counting, Bool.and_eq_true, beq_iff_eq, Bool.or_eq_true, decide_eq_true_eq] at h ⊢
  obtain ⟨hodd, hne, hrange⟩ := hcnt b.cnt h.1
  exact ⟨⟨hodd, h.2.imp_right hrange⟩, hne⟩

/-- The second strobe of a pulse, at an odd count: it wraps exactly from 15, as it does in the one pulse of a transfer
of one bit (R89, R96). -/
theorem Block.cnt_succ_of_odd {b : Block} (h : b.counting true = true) :
    (b.cnt + 1#4).getLsbD 0 = false ∧ (b.cnt = 15#4 ↔ b.cnt + 1#4 = 0#4) ∧
      (b.tret.ofByte = true ∨ b.cnt + 1#4 = 0#4) := by
  have hcnt : ∀ c : Count, c.getLsbD 0 = true →
      (c + 1#4).getLsbD 0 = false ∧ (c = 15#4 ↔ c + 1#4 = 0#4) ∧ (14#4 ≤ c → c + 1#4 = 0#4) := by decide
  simp only [Block.counting, Bool.and_eq_true, beq_iff_eq, Bool.or_eq_true, decide_eq_true_eq] at h
  obtain ⟨heven, hwrap, hrange⟩ := hcnt b.cnt h.1
  exact ⟨heven, hwrap, h.2.imp_right hrange⟩

/-- The steps of TRANSFER but T9 leave the registers as the next label asks (R95). -/
theorem Block.Shaped.writes_shape_transfer {e : Env} {b : Block} {l : TransferLabel} (h : b.Shaped)
    (hu : b.upc = .transfer l) (hw : (transferProgram l).op = .waitScl → b.sclLine e = true)
    (ht : l ≠ .t9) : ((transferProgram l).writes b).shape = true := by
  have hs := h.shape
  simp only [Block.shape, hu] at hs
  cases l with
  | t0 =>
    cases hr : b.tret <;> simp_all [transferProgram, Block.shape, Block.transferSetUp, Block.clockHeldLow,
      Block.counting, RetLabel.ofByte, RetLabel.ofRead, Config.statusByteWord, Config.statusBitWord]
  | t1 => simpa [transferProgram, Block.shape, Block.transferSetUp, Block.clockHeldLow, Block.counting] using hs
  | t2 =>
    have hcnt := Block.counting_succ_of_even (b := b)
    simp_all [transferProgram, Block.shape, Block.transferSetUp, Block.clockHeldLow, Block.counting]
  | t3 =>
    have ho : b.outScl = true := (Block.sclLine_eq_true.mp (hw rfl)).1 h.dirScl
    simp_all [transferProgram, Block.shape, Block.transferSetUp, Block.counting]
  | t4 => simpa [transferProgram, Block.shape, Block.transferSetUp, Block.counting] using hs
  | t5 =>
    have hcnt := Block.cnt_succ_of_odd (b := b)
    simp_all [transferProgram, Block.shape, Block.transferSetUp]
  | t6 =>
    cases ho : b.fOvf with
    | true => simp_all [transferProgram, Block.shape, Block.transferSetUp]
    | false =>
      have hbyte : b.tret.ofByte = true := by grind
      simp_all [transferProgram, Block.shape, Block.transferSetUp, Block.clockHeldLow, Block.counting]
  | t7 => simpa [transferProgram, Block.shape, Block.transferSetUp] using hs
  | t8 => simpa [transferProgram, Block.shape, Block.transferSetUp] using hs
  | t9 => exact absurd rfl ht
  | t10 =>
    cases hr : b.tret <;> simp_all [transferProgram, Block.shape, Block.transferSetUp, Block.settled,
      RetLabel.toLabel, RetLabel.ofByte, RetLabel.opcode, RetLabel.drivesData]

/-- Phase 1 of every micro-step but T9 leaves the registers in the shape of the next label (R32). -/
theorem Block.Shaped.writes_shape {e : Env} {b : Block} {m : MicroStep} (h : b.Shaped)
    (hm : microcode b.upc = some m) (hw : m.op = .waitScl → b.sclLine e = true)
    (ht : b.upc ≠ .transfer .t9) : (m.writes b).shape = true := by
  have hs := h.shape
  have hd := h.dirScl
  rw [Block.sclLine_eq_true] at hw
  generalize hu : b.upc = l at hm
  cases l, m, hm using microcode_cases with
  | init l => cases l <;> simp_all [initProgram, Block.shape, Block.settled]
  | start l => cases l <;> simp_all [startProgram, Block.shape, Block.settled]
  | stop l => cases l <;> simp_all [stopProgram, Block.shape, Block.settled]
  | write l =>
    cases l <;> simp_all [writeProgram, Block.shape, Block.settled, Block.transferSetUp, RetLabel.ofByte,
      RetLabel.drivesData, RetLabel.opcode, Block.dataOperand]
  | readAck l =>
    cases l <;> simp_all [readAckProgram, Block.shape, Block.settled, Block.transferSetUp, RetLabel.ofByte,
      RetLabel.ofRead, RetLabel.drivesData, RetLabel.opcode]
  | readNack l =>
    cases l <;> simp_all [readNackProgram, Block.shape, Block.settled, Block.transferSetUp, RetLabel.ofByte,
      RetLabel.ofRead, RetLabel.drivesData, RetLabel.opcode]
  | transfer l =>
    exact h.writes_shape_transfer hu (fun hop => Block.sclLine_eq_true.mpr (hw hop)) (by simpa [hu] using ht)

/-- The return label of a transfer set up by a CALL is a label of the caller, not `IDLE` (R93). -/
theorem Block.tret_of_transferSetUp {b : Block} (h : b.transferSetUp = true) : b.tret ≠ .idle := by
  intro hr
  simp [Block.transferSetUp, hr, RetLabel.opcode] at h

theorem RetLabel.toLabel_eq_idle {r : RetLabel} : r.toLabel = .idle ↔ r = .idle := by
  cases r <;> simp [RetLabel.toLabel]

theorem RetLabel.toLabel_shifting (r : RetLabel) : r.toLabel.shifting = false := by
  cases r <;> rfl

/-- Phase 1 keeps `BUSY` and `XFER` in step with `UPC`, given that a RETURN does not go to `IDLE` (R23, R24). -/
theorem MicroStep.writes_busy_xfer {b : Block} {m : MicroStep} (hm : microcode b.upc = some m)
    (hb : b.busy = true) (hx : b.xfer = b.upc.shifting) (hr : b.upc = .transfer .t10 → b.tret ≠ .idle) :
    (m.writes b).busy = ((m.writes b).upc != .idle) ∧ (m.writes b).xfer = (m.writes b).upc.shifting := by
  generalize b.upc = l at hm hx hr
  cases l, m, hm using microcode_cases with
  | init l => cases l <;> simp [initProgram, Label.shifting, hb, hx]
  | start l => cases l <;> simp [startProgram, Label.shifting, hb, hx]
  | stop l => cases l <;> simp [stopProgram, Label.shifting, hb, hx]
  | write l => cases l <;> simp [writeProgram, Label.shifting, hb, hx]
  | readAck l => cases l <;> simp [readAckProgram, Label.shifting, hb, hx]
  | readNack l => cases l <;> simp [readNackProgram, Label.shifting, hb, hx]
  | transfer l =>
    cases l with
    | t6 => cases ho : b.fOvf <;> simp [transferProgram, Label.shifting, hb, hx, ho]
    | t10 =>
      exact ⟨by simp [transferProgram, hb, RetLabel.toLabel_eq_idle, hr rfl],
        hx.trans (RetLabel.toLabel_shifting b.tret).symm⟩
    | _ => simp [transferProgram, Label.shifting, hb, hx]

theorem MicroStep.writes_control {b : Block} {m : MicroStep} (hm : microcode b.upc = some m)
    (hc : b.control = Config.controlWord) (hd : b.dirScl = true) :
    (m.writes b).control = Config.controlWord ∧ (m.writes b).dirScl = true := by
  by_cases hu : b.upc = .init .i0
  · obtain rfl : initProgram .i0 = m := by simpa [hu, microcode] using hm
    exact ⟨rfl, rfl⟩
  · have hframe := mt (MicroStep.writes_writtenFrom hm).configured hu
    simp only [not_or, not_not] at hframe
    exact ⟨hframe.2.1.trans hc, hframe.1.trans hd⟩

theorem Block.Shaped.writes {e : Env} {b : Block} {m : MicroStep} (h : b.Shaped) (hb : b.busy = true)
    (hm : microcode b.upc = some m) (hw : m.op = .waitScl → b.sclLine e = true)
    (ht : b.upc ≠ .transfer .t9) : (m.writes b).Shaped := by
  have hret : b.upc = .transfer .t10 → b.tret ≠ .idle := fun hu => by
    have hs := h.shape
    simp only [Block.shape, hu, Bool.and_eq_true] at hs
    obtain ⟨⟨⟨⟨⟨hset, -⟩, -⟩, -⟩, -⟩, -⟩ := hs
    exact Block.tret_of_transferSetUp hset
  obtain ⟨hbusy, hxfer⟩ := MicroStep.writes_busy_xfer hm hb h.xfer hret
  obtain ⟨hc, hd⟩ := MicroStep.writes_control hm h.control h.dirScl
  exact ⟨hbusy, hxfer, hc, hd, h.writes_shape hm hw ht⟩

/-- I0 leaves a shaped block, whatever it finds (R110). -/
theorem Block.configure_shaped {b : Block} (hb : b.busy = true) (ho : b.op = 0#3) :
    (b.configure.goto (.init .iFin)).Shaped :=
  ⟨by simp [hb], by simp [Label.shifting], by simp, by simp, by simp [Block.shape, Block.settled, ho]⟩

theorem Block.configure_latched (e : Env) (b : Block) (l : Label) : (b.configure.goto l).Latched e :=
  .inr (by simp [Config.idleHigh])

/-- T9 loads the idle-high pattern with the clock held low, and the latch follows it (R15, R95). -/
theorem Block.Shaped.writes_t9 {e : Env} {scl0 sda0 : Level} {b : Block} (h : b.Shaped)
    (hb : b.busy = true) (hu : b.upc = .transfer .t9) :
    (((transferProgram .t9).writes b).lineUpdate e scl0 sda0).Shaped := by
  have hs := h.shape
  simp only [Block.shape, hu, Bool.and_eq_true, Bool.not_eq_true'] at hs
  obtain ⟨⟨⟨hset, ho⟩, hovf⟩, hcnt⟩ := hs
  have hlow : ((transferProgram .t9).writes b).sclLine e = false := by
    simp [Block.sclLine, Block.mScl, transferProgram, h.dirScl, ho]
  refine ⟨by simp [transferProgram, hb], by simp [transferProgram, h.xfer, hu, Label.shifting],
    by simp [transferProgram, h.control], by simp [transferProgram, h.dirScl], ?_⟩
  have htwm : ((transferProgram .t9).writes b).twm = true := Block.twm_of_control h.control
  have hsr : (((transferProgram .t9).writes b).lineUpdate e scl0 sda0).sr = Config.idleHigh :=
    (Block.lineUpdate_low hlow).1
  have hsdo : (((transferProgram .t9).writes b).lineUpdate e scl0 sda0).sdo = true := by
    rw [Block.lineUpdate_sdo, htwm, hlow]
    simp [transferProgram, Config.idleHigh]
  simp only [Block.shape, Block.transferSetUp, Block.lineUpdate_frame, hsr, hsdo] at hset ⊢
  simp [transferProgram, hset, ho, hovf, hcnt]

/-- A micro-step keeps the invariant: I0 makes it from nothing, T9 needs its own line update, and every other step
keeps the shape in its first phase and the latch in its second. -/
theorem Block.inv_seqStep {e : Env} {b b' : Block} (h : b.inv e = true) (hs : b.seqStep e = some b') :
    b'.inv e = true := by
  have hb : b.busy = true := (Block.seqStep_some hs).1
  obtain ⟨m, hm, hw, rfl⟩ := Block.seqStep_phases hs
  rw [Block.inv_iff] at h ⊢
  right
  rcases h with h | ⟨h, hl⟩
  · rcases h.upc with hu | ⟨hu, ho⟩
    · simp [hu, microcode] at hm
    · obtain rfl : initProgram .i0 = m := by simpa [hu, microcode] using hm
      exact ⟨Block.configure_shaped hb ho, Block.configure_latched e b _⟩
  · by_cases ht : b.upc = .transfer .t9
    · obtain rfl : transferProgram .t9 = m := by simpa [ht, microcode] using hm
      exact ⟨h.writes_t9 hb ht, Block.lineUpdate_latched (Block.twm_of_control h.control)⟩
    · have hshaped := h.writes hb hm hw ht
      cases hop : m.op.updatesLines with
      | true => exact hshaped.lineUpdate
      | false =>
        refine ⟨hshaped, ?_⟩
        rcases MicroOp.updatesLines_eq_false.mp hop with hop | ⟨r, hop⟩ <;>
          simp only [MicroStep.writes, hop]
        · exact Block.configure_latched e b _
        · exact hl

/-! ## Reset, rest and acceptance -/

theorem Block.inv_reset (e : Env) : Block.reset.inv e = true := by
  rw [Block.inv_iff]
  exact .inl ⟨rfl, rfl, rfl, .inl rfl, rfl, rfl⟩

/-- With no command in progress the registers rest, configured or not (R32). -/
theorem Block.inv_of_not_busy {e : Env} {b : Block} (h : b.inv e = true) (hb : b.busy = false) :
    b.upc = .idle ∧ b.xfer = false ∧
      ((b.control = 0x00#8 ∧ b.dirSda = false ∧ b.dirScl = false) ∨
        (b.Shaped ∧ b.Latched e ∧ b.settled = true)) := by
  rcases Block.inv_iff.mp h with h | ⟨h, hl⟩
  · have hu : b.upc = .idle := by simpa [hb] using h.busy
    exact ⟨hu, by simpa [hu, Label.shifting] using h.xfer, .inl ⟨h.control, h.dirSda, h.dirScl⟩⟩
  · have hu : b.upc = .idle := by simpa [hb] using h.busy
    exact ⟨hu, by simpa [hu, Label.shifting] using h.xfer,
      .inr ⟨h, hl, by simpa [Block.shape, hu] using h.shape⟩⟩

/-- The first label of a command asks of the registers what the command boundary leaves, and the opcode (R62). -/
theorem Block.accept_shape {b : Block} (i : Instr) (h : b.settled = true) :
    (b.accept i.opcode i.operand (firstLabel i)).shape = true := by
  cases i <;> simpa [Block.shape, firstLabel, Instr.opcode, Block.settled] using h

/-- Acceptance keeps the invariant, where the command is not refused (R62, R63). -/
theorem Block.inv_accept {e : Env} {b : Block} {i : Instr} (h : b.inv e = true) (hb : b.busy = false)
    (hc : i.opcode = 0#3 ∨ b.control = Config.controlWord) :
    (b.accept i.opcode i.operand (firstLabel i)).inv e = true := by
  rw [Block.inv_iff]
  obtain ⟨-, hx, ⟨hctl, hd, hs⟩ | ⟨hsh, hl, hset⟩⟩ := Block.inv_of_not_busy h hb
  · have ho : i.opcode = 0#3 := by simpa [hctl, Config.controlWord] using hc
    cases i <;> simp [Instr.opcode] at ho
    exact .inl ⟨rfl, hx, hctl, .inr ⟨rfl, rfl⟩, hd, hs⟩
  · have hxi : b.xfer = (firstLabel i).shifting := by cases i <;> exact hx
    have hbi : true = (firstLabel i != .idle) := by cases i <;> rfl
    exact .inr ⟨⟨hbi, hxi, hsh.control, hsh.dirScl, Block.accept_shape i hset⟩, hl⟩

/-! ## The machine -/

theorem State.inv_iff {s : State} :
    s.inv = true ↔ s.blk.inv s.env = true ∧ (s.rst = true → s.blk = Block.reset) := by
  cases hr : s.rst <;> simp [State.inv, hr]

theorem State.inv_seqStep {s t : State} (h : s.inv = true) (hs : s.seqStep = some t) : t.inv = true := by
  obtain ⟨hr, b, hb, rfl⟩ := State.seqStep_some hs
  rw [State.inv_iff] at h ⊢
  exact ⟨Block.inv_seqStep h.1 hb, fun h' => absurd (hr.symm.trans h') (by decide)⟩

theorem State.inv_move {s : State} (m : Move) (h : s.inv = true) : (s.move m).inv = true := by
  have hi := State.inv_iff.mp h
  rcases State.move_cases m s with hm | hm | ⟨l, -, hr, hm⟩ | ⟨-, hm⟩ | ⟨-, hm⟩
  · exact hm.symm ▸ h
  · exact State.inv_seqStep h hm
  · rw [hm, State.inv_iff]
    exact ⟨Block.inv_lineUpdate hi.1, by simp [hr]⟩
  · rw [hm, State.inv_iff]
    exact ⟨Block.inv_reset s.env, fun _ => rfl⟩
  · rw [hm, State.inv_iff]
    exact ⟨hi.1, by simp⟩

theorem State.ready_iff {s : State} : s.ready = true ↔ s.rst = false ∧ s.blk.busy = false := by
  simp [State.ready, Block.cmdReady]

theorem State.inv_accepted {s : State} {i : Instr} (h : s.inv = true) (hr : s.ready = true)
    (hc : i.opcode = 0#3 ∨ s.blk.control = Config.controlWord) : (s.accepted i).inv = true := by
  obtain ⟨hrst, hb⟩ := State.ready_iff.mp hr
  rw [State.inv_iff] at h ⊢
  exact ⟨Block.inv_accept h.1 hb hc, by simp [hrst]⟩

theorem State.inv_run {s : State} (h : s.inv = true) : s.run.inv = true :=
  State.run_keeps (P := fun s => s.inv = true) (fun _ _ hs ht => State.inv_seqStep hs ht)
    (fun m _ _ hs _ => State.inv_move m hs) s h

theorem State.inv_exec {s t : State} {i : Instr} (h : s.inv = true) (he : exec i s = .next t) :
    t.inv = true := by
  rcases exec_next he with ⟨-, rfl⟩ | ⟨hr, hc, rfl⟩
  · exact h
  · exact State.inv_run (State.inv_accepted h hr hc)

/-- Settles O24: a step is the run of a command, a move, a micro-step, or nothing, and each keeps the invariant. -/
theorem everyStepKeepsTheInvariant : Obligations.EveryStepKeepsTheInvariant := by
  intro s t h hs
  rcases step_next hs with ⟨w, u, i, hf, -, he⟩ | ⟨-, ⟨m, ms, -, rfl⟩ | ⟨-, ht | rfl⟩⟩
  · obtain ⟨-, ws, -, ⟨-, rfl⟩ | ⟨ms, -, rfl⟩⟩ := State.fetch_some hf
    · exact State.inv_exec (s := { s with script := ws }) h he
    · exact State.inv_exec (s := { s with script := ws, agenda := ms }) h he
  · exact State.inv_move m h
  · exact State.inv_seqStep h ht
  · exact h

/-- Events that are steps keep the invariant, one after the other. -/
theorem Event.inv_of_stepsFrom {s : State} {es : List Event} (h : s.inv = true) (hs : StepsFrom s es) :
    ∀ e ∈ es, e.after.inv = true := by
  induction es generalizing s with
  | nil => simp
  | cons e es ih =>
    obtain ⟨he, hes⟩ := hs
    have hi : e.after.inv = true := by
      rcases he with ⟨w, i, ws, a, hr, -, -, hc, rfl⟩ | ⟨m, a, -, rfl⟩
      · exact State.inv_accepted h hr hc
      · exact State.inv_move m h
    exact List.forall_mem_cons.mpr ⟨hi, ih hi hes⟩

/-- Settles O25: the events of a trail are steps, and every step keeps the invariant. -/
theorem theInvariantHoldsAllAlongACommand : Obligations.TheInvariantHoldsAllAlongACommand := by
  intro i s h hr hc
  exact Event.inv_of_stepsFrom (State.inv_accepted h hr hc) (State.trailAgenda_steps _ _)

/-- Settles O23: the reset block is one that INIT has not yet configured. -/
theorem invariantHoldsAtReset : Obligations.InvariantHoldsAtReset :=
  State.inv_iff.mpr ⟨Block.inv_reset _, nofun⟩

/-- Settles O26: at rest the block is unconfigured, or settled. -/
theorem restingValuesAtCommandBoundaries : Obligations.RestingValuesAtCommandBoundaries := by
  intro s h hb
  obtain ⟨hu, hx, ⟨hc, hd, hs⟩ | ⟨hsh, -, hset⟩⟩ := Block.inv_of_not_busy (State.inv_iff.mp h).1 hb
  · refine ⟨fun h' => absurd (hc.symm.trans h') (by decide), fun _ => ⟨hc, ?_, ?_⟩⟩
    · simp [State.sclLine, Block.sclLine, Block.mScl, hs]
    · simp [State.sdaLine, Block.sdaLine, Block.mSda, hd]
  · simp only [Block.settled, Bool.and_eq_true, beq_iff_eq] at hset
    obtain ⟨⟨⟨hd, ho⟩, hr⟩, hsdo⟩ := hset
    refine ⟨fun _ => ⟨hd, hsh.dirScl, ho, hr, hsdo, hx, hu, ?_⟩, fun h' => absurd hsh.control h'⟩
    simp [Block.mSda, ho, hsdo]

end Sys2Proof.Machine
end

section
/-! SUPPORT. What the line update of a micro-step writes under the invariant: `SR`, `SDO`, `F_START`, `F_STOP` (R83,
R84). -/

namespace Sys2Proof.Machine

/-- With the latch following `SR[7]`, FIN may be read as a micro-step with a line update too, since that update
finds nothing to do: so every micro-step but I0 is its writes and a line update (R81, R84, R92). -/
theorem Block.Latched.seqStep {e : Env} {b b' : Block} (h : b.seqStep e = some b') (hl : b.Latched e)
    (hi : b.upc ≠ .init .i0) :
    ∃ m, microcode b.upc = some m ∧ b' = (m.writes b).lineUpdate e (b.sclLine e) (b.sdaLine e) := by
  obtain ⟨m, hm, -, rfl⟩ := Block.seqStep_phases h
  refine ⟨m, hm, ?_⟩
  cases hop : m.op.updatesLines with
  | true => rfl
  | false =>
    rcases MicroOp.updatesLines_eq_false.mp hop with hop | ⟨r, hop⟩
    · exact absurd ((microcode_configure hm).mp hop) hi
    · have hfin : m.writes b = b.fin r := by simp [MicroStep.writes, hop]
      rw [hfin]
      exact (Block.lineUpdate_idle (b := b.fin r) hl).symm

theorem Block.sclLine_eq_outScl {e : Env} {b : Block} (hd : b.dirScl = true) :
    b.sclLine e = (b.outScl && e.scl) := by
  simp [Block.sclLine, Block.mScl, hd]

theorem Block.lineUpdate_sdaLine_of_high {e : Env} {scl0 sda0 : Level} {b : Block} (h : b.sclLine e = true) :
    (b.lineUpdate e scl0 sda0).sdaLine e = b.sdaLine e :=
  Block.sdaLine_congr (by simp) (by simp) (by simp [Block.lineUpdate_sdo, h])

/-- While the clock line stays high, a micro-step moves the data line at S3 and P0, which pull it low, and at P4,
which lets it go (R87, R111, R112). -/
theorem Block.Shaped.writes_condition {e : Env} {b : Block} {m : MicroStep} (h : b.Shaped)
    (hm : microcode b.upc = some m) (hi : b.upc ≠ .init .i0) (hscl : b.sclLine e = true)
    (hsda : (m.writes b).sdaLine e ≠ b.sdaLine e) :
    ((b.upc = .start .s3 ∨ b.upc = .stop .p0) ∧ (m.writes b).sdaLine e = false) ∨
      (b.upc = .stop .p4 ∧ b.sdaLine e = false) := by
  have hs := h.shape
  have ho : b.outScl = true := (Block.sclLine_eq_true.mp hscl).1 h.dirScl
  have hc := MicroStep.writes_writtenFrom hm
  have hsdo : (m.writes b).sdo = b.sdo := not_not.mp (mt hc.sdo hi)
  have hdrive : (m.writes b).dirSda ≠ b.dirSda ∨ (m.writes b).outSda ≠ b.outSda := by
    by_contra! hd
    exact hsda (Block.sdaLine_congr hd.1 hd.2 hsdo)
  rcases hdrive with hd | hd
  · rcases hc.dirSda hd with hu | hu | hu | hu | hu
    · exact absurd hu hi
    · simp [Block.shape, hu, ho] at hs
    · obtain rfl : readAckProgram .a0 = m := by simpa [hu, microcode] using hm
      simp_all [Block.shape, Block.settled, readAckProgram, Block.sdaLine, Block.mSda]
    · obtain rfl : readNackProgram .n0 = m := by simpa [hu, microcode] using hm
      simp_all [Block.shape, Block.settled, readNackProgram, Block.sdaLine, Block.mSda]
    · simp [Block.shape, hu, ho] at hs
  · rcases hc.outSda hd with hu | hu | hu | hu | hu
    · exact absurd hu hi
    · obtain rfl : startProgram .s3 = m := by simpa [hu, microcode] using hm
      simp_all [Block.shape, Block.settled, startProgram, Block.sdaLine, Block.mSda]
    · simp [Block.shape, hu, ho] at hs
    · obtain rfl : stopProgram .p0 = m := by simpa [hu, microcode] using hm
      simp_all [Block.shape, Block.settled, stopProgram, Block.sdaLine, Block.mSda]
    · simp_all [Block.shape, Block.sdaLine, Block.mSda]

theorem startCondition_iff {scl0 scl1 sda0 sda1 : Level} :
    startCondition scl0 scl1 sda0 sda1 = true ↔ scl0 = true ∧ scl1 = true ∧ sda0 = true ∧ sda1 = false := by
  simp [startCondition, and_assoc]

theorem stopCondition_iff {scl0 scl1 sda0 sda1 : Level} :
    stopCondition scl0 scl1 sda0 sda1 = true ↔ scl0 = true ∧ scl1 = true ∧ sda0 = false ∧ sda1 = true := by
  simp [stopCondition, and_assoc]

/-- A micro-step sets `F_START` only at S3 and P0, and clears it only at T0 and I0 (R17, R84). -/
theorem Block.Shaped.seqStep_fStart {e : Env} {b b' : Block} (h : b.Shaped) (hl : b.Latched e)
    (hs : b.seqStep e = some b') (hi : b.upc ≠ .init .i0) (hne : b'.fStart ≠ b.fStart) :
    (b'.fStart = true ∧ b.sclLine e = true ∧ (b.upc = .start .s3 ∨ b.upc = .stop .p0)) ∨
      (b'.fStart = false ∧ b.upc = .transfer .t0) := by
  obtain ⟨m, hm, rfl⟩ := hl.seqStep hs hi
  have hc := MicroStep.writes_writtenFrom hm
  rw [Block.lineUpdate_fStart] at hne ⊢
  generalize hk : (_ && startCondition _ _ _ _) = k at hne ⊢
  cases k with
  | true =>
    obtain ⟨-, hcond⟩ := Bool.and_eq_true_iff.mp hk
    obtain ⟨hscl, hscl', hsda, hsda'⟩ := startCondition_iff.mp hcond
    rw [Block.lineUpdate_sdaLine_of_high hscl'] at hsda'
    have hu := h.writes_condition hm hi hscl (by simp [hsda, hsda'])
    simpa [hscl, hsda, hsda'] using hu
  | false =>
    rw [Bool.or_false] at hne ⊢
    have hset := hc.noFlagSet.1
    exact .inr ⟨by grind, (hc.fStart hne).resolve_left hi⟩

/-- A micro-step sets `F_STOP` only at P4, and clears it only at T0 and I0 (R19, R84). -/
theorem Block.Shaped.seqStep_fStop {e : Env} {b b' : Block} (h : b.Shaped) (hl : b.Latched e)
    (hs : b.seqStep e = some b') (hi : b.upc ≠ .init .i0) (hne : b'.fStop ≠ b.fStop) :
    (b'.fStop = true ∧ b.upc = .stop .p4) ∨ (b'.fStop = false ∧ b.upc = .transfer .t0) := by
  obtain ⟨m, hm, rfl⟩ := hl.seqStep hs hi
  have hc := MicroStep.writes_writtenFrom hm
  rw [Block.lineUpdate_fStop] at hne ⊢
  generalize hk : (_ && stopCondition _ _ _ _) = k at hne ⊢
  cases k with
  | true =>
    obtain ⟨-, hcond⟩ := Bool.and_eq_true_iff.mp hk
    obtain ⟨hscl, hscl', hsda, hsda'⟩ := stopCondition_iff.mp hcond
    rw [Block.lineUpdate_sdaLine_of_high hscl'] at hsda'
    have hu := h.writes_condition hm hi hscl (by simp [hsda, hsda'])
    simpa [hsda, hsda'] using hu
  | false =>
    rw [Bool.or_false] at hne ⊢
    have hset := hc.noFlagSet.2
    exact .inr ⟨by grind, (hc.fStop hne).resolve_left hi⟩

/-- While `XFER = 1` the clock line rises at T2 alone: the other strobe, at T5, lowers it (R97). -/
theorem Block.Shaped.writes_rise {e : Env} {b : Block} {m : MicroStep} (h : b.Shaped)
    (hm : microcode b.upc = some m) (hi : b.upc ≠ .init .i0) (hlow : b.sclLine e = false)
    (hhigh : (m.writes b).sclLine e = true) (hx : (m.writes b).xfer = true) : b.upc = .transfer .t2 := by
  have hs := h.shape
  have hbx : b.xfer = b.upc.shifting := h.xfer
  have hxfer := (MicroStep.writes_writtenFrom hm).xfer
  rcases MicroStep.writes_sclLine (e := e) hm (by simp [hlow, hhigh]) with hu | hu | hu | hu | hu | hu | hu
  · exact absurd hu hi
  · simp_all [Label.shifting]
  · simp_all [Label.shifting]
  · simp_all [Label.shifting]
  · simp_all [Label.shifting]
  · exact hu
  · obtain rfl : transferProgram .t5 = m := by simpa [hu, microcode] using hm
    have ho : b.outScl = true := by simp_all [Block.shape]
    simp [transferProgram, Block.sclLine, Block.mScl, h.dirScl, ho] at hhigh

/-- Under the invariant a micro-step changes `SR` only by a load, or by the shift at T2 (R14, R83). -/
theorem Block.Shaped.seqStep_sr {e : Env} {b b' : Block} (h : b.Shaped) (hl : b.Latched e)
    (hs : b.seqStep e = some b') (hi : b.upc ≠ .init .i0) (hne : b'.sr ≠ b.sr) :
    b.upc = .write .w1 ∨ b.upc = .readAck .a2 ∨ b.upc = .readNack .n2 ∨ b.upc = .transfer .t9 ∨
      (b.upc = .transfer .t2 ∧ b'.sclLine e = true ∧ b'.sr = shiftIn b.sr (b.sdaLine e)) := by
  obtain ⟨m, hm, rfl⟩ := hl.seqStep hs hi
  have hc := MicroStep.writes_writtenFrom hm
  by_cases hsr : (m.writes b).sr = b.sr
  · obtain ⟨hlow, hhigh, hx, hshift⟩ := Block.lineUpdate_sr_ne (hsr ▸ hne)
    rw [hsr] at hshift
    simp [h.writes_rise hm hi hlow hhigh hx, hhigh, hshift]
  · rcases hc.sr hsr with hu | hu | hu | hu | hu
    · exact absurd hu hi
    all_goals simp [hu]

/-- The strobe at T2 with the clock held low by the block alone shifts the data line's level in (R83). -/
theorem Block.Shaped.seqStep_t2 {e : Env} {b b' : Block} (h : b.Shaped) (hl : b.Latched e)
    (hs : b.seqStep e = some b') (hu : b.upc = .transfer .t2) (he : e.scl = true) (ho : b.outScl = false) :
    b'.sr = shiftIn b.sr (b.sdaLine e) := by
  obtain ⟨m, hm, rfl⟩ := hl.seqStep hs (by simp [hu])
  obtain rfl : transferProgram .t2 = m := by simpa [hu, microcode] using hm
  have htwm : ((transferProgram .t2).writes b).twm = true := Block.twm_of_control h.control
  have hx : b.xfer = true := h.xfer.trans (by simp [hu, Label.shifting])
  have hlow : b.sclLine e = false := by simp [Block.sclLine_eq_outScl h.dirScl, ho]
  have hhigh : ((transferProgram .t2).writes b).sclLine e = true := by
    simp [Block.sclLine, Block.mScl, transferProgram, ho, he]
  rw [Block.lineUpdate_sr, htwm, hlow, hhigh]
  simp [transferProgram, hx]

/-- Under the invariant a micro-step changes `SDO` where the latch is open for a load, or opens as the clock falls: at
T5, or at the T2 of a READ entered with the clock released (R15, R98, R157). -/
theorem Block.Shaped.seqStep_sdo {e : Env} {b b' : Block} (h : b.Shaped) (hl : b.Latched e)
    (hs : b.seqStep e = some b') (hi : b.upc ≠ .init .i0) (hne : b'.sdo ≠ b.sdo) :
    b.upc = .write .w1 ∨ b.upc = .readAck .a2 ∨ b.upc = .transfer .t5 ∨ b.upc = .transfer .t9 ∨
      (b.upc = .transfer .t2 ∧ b.outScl = true ∧ b.tret.ofRead = true ∧ b'.sdo = b.sr.getLsbD 7) := by
  obtain ⟨m, hm, rfl⟩ := hl.seqStep hs hi
  have hshape := h.shape
  have hc := MicroStep.writes_writtenFrom hm
  have hsdo : (m.writes b).sdo = b.sdo := not_not.mp (mt hc.sdo hi)
  have hlow : (m.writes b).sclLine e = false := by
    by_contra hhigh
    simp [Block.lineUpdate_sdo, hsdo, hhigh] at hne
  have htwm : (m.writes b).twm = true :=
    Block.twm_of_control (MicroStep.writes_control hm h.control h.dirScl).1
  have hval : ((m.writes b).lineUpdate e (b.sclLine e) (b.sdaLine e)).sdo = (m.writes b).sr.getLsbD 7 := by
    simp [Block.lineUpdate_sdo, hlow, htwm]
  rw [hval] at hne ⊢
  rcases hl with hhigh | hlatch
  · have hsr := hc.sr
    have ho : b.outScl = true := (Block.sclLine_eq_true.mp hhigh).1 h.dirScl
    rcases MicroStep.writes_sclLine (e := e) hm (by simp [hlow, hhigh]) with hu | hu | hu | hu | hu | hu | hu
    · exact absurd hu hi
    · simp_all [Block.shape, Block.settled, Config.idleHigh]
    · simp_all [Block.shape, Config.idleHigh]
    · simp_all [Block.shape, Config.idleHigh]
    · simp_all [Block.shape, Block.settled, Config.idleHigh]
    · simp_all [Block.shape, Block.clockHeldLow]
    · simp [hu]
  · have hload : (m.writes b).sr ≠ b.sr := fun hsr => hne (by rw [hsr, hlatch])
    rcases hc.sr hload with hu | hu | hu | hu | hu
    · exact absurd hu hi
    · simp [hu]
    · simp [hu]
    · obtain rfl : readNackProgram .n2 = m := by simpa [hu, microcode] using hm
      simp_all [Block.shape, Block.settled, readNackProgram]
    · simp [hu]

/-- Only a FIN changes `BUSY`, and it answers (R24, R92). -/
theorem Block.seqStep_busy {e : Env} {b b' : Block} (h : b.seqStep e = some b') (hne : b'.busy ≠ b.busy) :
    b'.rspValid = true ∧ (b.upc = .init .iFin ∨ b.upc = .start .sFin ∨ b.upc = .stop .pFin ∨
      b.upc = .write .wFin ∨ b.upc = .readAck .aFin ∨ b.upc = .readNack .nFin) := by
  obtain ⟨m, hm, ha⟩ := Block.seqStep_agrees h
  rw [ha.busy] at hne
  rw [ha.rspValid]
  exact (MicroStep.writes_writtenFrom hm).busy hne

theorem Block.seqStep_upc {e : Env} {b b' : Block} (h : b.seqStep e = some b') : b'.upc ≠ b.upc := by
  obtain ⟨m, hm, ha⟩ := Block.seqStep_agrees h
  rw [ha.upc]
  exact (MicroStep.writes_writtenFrom hm).upc

theorem Block.seqStep_i0 {e : Env} {b b' : Block} (h : b.seqStep e = some b') (hu : b.upc = .init .i0) :
    b' = b.configure.goto (.init .iFin) := by
  obtain ⟨m, hm, -, rfl⟩ := Block.seqStep_phases h
  obtain rfl : initProgram .i0 = m := by simpa [hu, microcode] using hm
  rfl

/-- Under the invariant only I0 runs with the block unconfigured (R63). -/
theorem Block.inv_cases {e : Env} {b b' : Block} (h : b.inv e = true) (hs : b.seqStep e = some b') :
    b.upc = .init .i0 ∨ (b.upc ≠ .init .i0 ∧ b.Shaped ∧ b.Latched e) := by
  by_cases hi : b.upc = .init .i0
  · exact .inl hi
  · obtain ⟨m, hm, -⟩ := Block.seqStep_phases hs
    refine .inr ⟨hi, (Block.inv_iff.mp h).resolve_left fun hun => ?_⟩
    rcases hun.upc with hu | ⟨hu, -⟩
    · simp [hu, microcode] at hm
    · exact hi hu

/-- Settles O19: I0 apart, each clause is the lemma about its register. -/
theorem lineUpdateRegistersChangeAtTheirStepsAlone : Obligations.LineUpdateRegistersChangeAtTheirStepsAlone := by
  intro e b b' h hs
  have hbusy := fun hne => (Block.seqStep_busy hs hne).2
  have hupc := Block.seqStep_upc hs
  rcases Block.inv_cases h hs with hu | ⟨hi, hsh, hl⟩
  · obtain rfl := Block.seqStep_i0 hs hu
    exact ⟨fun _ => .inl hu, by simp [hu], fun _ => .inl hu, fun _ => .inr ⟨rfl, .inl hu⟩,
      fun _ => .inr ⟨rfl, .inl hu⟩, hbusy, hupc⟩
  · exact ⟨fun hne => .inr (hsh.seqStep_sr hl hs hi hne), hsh.seqStep_t2 hl hs,
      fun hne => .inr (hsh.seqStep_sdo hl hs hi hne),
      fun hne => (hsh.seqStep_fStart hl hs hi hne).imp (And.imp_right And.right) (And.imp_right .inr),
      fun hne => (hsh.seqStep_fStop hl hs hi hne).imp_right (And.imp_right .inr), hbusy, hupc⟩

end Sys2Proof.Machine
end

section
/-! SUPPORT. The STATUS view (R21). -/

namespace Sys2Proof.Machine

/-- Settles O21: each field of the view is read off the concatenation. -/
theorem statusViewLayout : Obligations.StatusViewLayout := by
  intro coll b
  refine ⟨?_, ?_, ?_, ?_, ?_⟩
  case refine_4 =>
    apply BitVec.eq_of_getLsbD_eq
    intro k hk
    rw [BitVec.getLsbD_extractLsb', Block.status, BitVec.getLsbD_append]
    simp [hk]
  all_goals
    simp only [Block.status, BitVec.getLsbD_append, BitVec.getLsbD_ofBool]
    simp

end Sys2Proof.Machine
end

section
/-! SUPPORT. Reset: it is one step to the reset block, and it ends the run of a command (R31, R150, R151). -/

namespace Sys2Proof.Machine

/-- With reset planned next it is not the host's turn. -/
theorem State.fetch_of_assertReset {s : State} {ms : List Move} (ha : s.agenda = .assertReset :: ms) :
    s.fetch = none := by
  unfold State.fetch
  split
  · cases s.script <;> simp [ha]
  · rfl

theorem step_of_assertReset {s : State} {ms : List Move} (ha : s.agenda = .assertReset :: ms) :
    step s = .next { s with blk := Block.reset, rst := true, agenda := ms } := by
  rw [step_of_fetch_none (State.fetch_of_assertReset ha), State.advance_of_agenda_cons ha]
  rfl

/-- Settles O22: the values are those of `Block.reset`, whose `CONTROL` refuses every command but INIT. -/
theorem resetLeavesTheValuesOfTheTable : Obligations.ResetLeavesTheValuesOfTheTable := by
  refine ⟨fun s ms ha => ⟨_, step_of_assertReset ha, rfl, rfl⟩, rfl, rfl,
    fun i => ⟨fun ⟨t, ht⟩ => ?_, fun ho => ?_⟩⟩
  · rcases exec_next ht with ⟨hr, -⟩ | ⟨-, ho | hc, -⟩
    · exact absurd hr (by decide)
    · exact ho
    · exact absurd hc (by decide)
  · exact ⟨_, exec_of_ready rfl (.inl ho)⟩

/-- With no command in progress a run is over. -/
theorem State.runAgenda_of_not_busy {s : State} (hb : s.blk.busy = false) (ms : List Move) :
    State.runAgenda ms s = s := by
  have hq : s.seqStep = none := by
    cases hq : s.seqStep with
    | none => rfl
    | some t =>
      obtain ⟨-, b', hs, -⟩ := State.seqStep_some hq
      exact absurd ((Block.seqStep_some hs).1.symm.trans hb) (by decide)
  cases ms with
  | nil => simp [State.runAgenda, State.runQuiet, maxMicroSteps, hq]
  | cons m ms => simp [State.runAgenda, hb]

theorem State.runAgenda_cons_of_busy {s : State} {m : Move} {ms : List Move} (hb : s.blk.busy = true) :
    State.runAgenda (m :: ms) s = State.runAgenda ms ({ s with agenda := ms }.move m) := by
  simp [State.runAgenda, hb]

/-- A run that ends with reset asserted ends in the reset block, since no move but the release changes a block
under reset, and no run writes the script (R150, log 25). -/
theorem State.run_reset (s : State) (hr : s.rst = false) :
    (s.run.rst = true → s.run.blk = Block.reset) ∧ s.run.script = s.script := by
  refine State.run_keeps (P := fun t => (t.rst = true → t.blk = Block.reset) ∧ t.script = s.script)
    (fun u t hu ht => ?_) (fun m ms u hu _ => ?_) s ⟨by simp [hr], rfl⟩
  · obtain ⟨-, hrst, hscript, -⟩ := State.seqStep_frame ht
    refine ⟨fun h => ?_, hscript.trans hu.2⟩
    exact absurd ((State.seqStep_some ht).1.symm.trans (hrst.symm.trans h)) (by decide)
  · refine ⟨fun h => ?_, (State.move_frame m _).1.trans hu.2⟩
    rcases State.move_cases m { u with agenda := ms } with hm | hm | ⟨l, -, hrst, hm⟩ | ⟨-, hm⟩ | ⟨-, hm⟩
    · rw [hm] at h ⊢
      exact hu.1 h
    · obtain ⟨-, hrst, -⟩ := State.seqStep_frame hm
      exact absurd ((State.seqStep_some hm).1.symm.trans (hrst.symm.trans h)) (by decide)
    · exact absurd (hrst.symm.trans (hm ▸ h)) (by decide)
    · simp [hm]
    · simp [hm] at h

/-- A micro-step goes on with the command or ends it with a response (R92). -/
theorem State.seqStep_busy_or_response {s t : State} (h : s.seqStep = some t) :
    t.blk.busy = true ∨ t.blk.rspValid = true := by
  obtain ⟨-, b, hb, rfl⟩ := State.seqStep_some h
  have hbusy : s.blk.busy = true := (Block.seqStep_some hb).1
  by_cases hne : b.busy = s.blk.busy
  · exact .inl (hne.trans hbusy)
  · exact .inr (Block.seqStep_busy hb hne).1

/-- An attempt of the sequencer, whether enabled or not (R80). -/
theorem State.move_sequencer {s : State} (h : s.blk.busy = true ∨ s.blk.rspValid = true) :
    ((s.move .sequencer).blk.busy = true ∨ (s.move .sequencer).blk.rspValid = true) ∧
      (s.move .sequencer).env = s.env ∧ (s.move .sequencer).rst = s.rst := by
  cases hq : s.seqStep with
  | none => simpa [State.move, hq] using h
  | some t =>
    obtain ⟨henv, hrst, -⟩ := State.seqStep_frame hq
    simpa [State.move, hq, henv, hrst] using State.seqStep_busy_or_response hq

/-- Micro-steps and then reset: the run ends in the reset block there, or with the command completed before the
reset's turn (R150, R151). -/
theorem State.runAgenda_until_reset (n : Nat) (ms : List Move) (s t : State)
    (ha : s.agenda = List.replicate n Move.sequencer ++ Move.assertReset :: ms) (hr : s.rst = false)
    (hv : s.blk.busy = true ∨ s.blk.rspValid = true) (ht : State.runAgenda s.agenda s = t) :
    (t.rst = true ∧ t.blk = Block.reset ∧ t.env = s.env ∧ t.agenda = ms) ∨
      (t.completed = true ∧ t.rst = false ∧
        ∃ k : Nat, t.agenda = List.replicate k Move.sequencer ++ Move.assertReset :: ms) := by
  induction n generalizing s with
  | zero =>
    cases hb : s.blk.busy with
    | false =>
      obtain rfl := (State.runAgenda_of_not_busy hb _).symm.trans ht
      exact .inr ⟨by simpa [State.completed, hb] using hv, hr, 0, ha⟩
    | true =>
      rw [ha, List.replicate_zero, List.nil_append, State.runAgenda_cons_of_busy hb,
        State.runAgenda_of_not_busy rfl] at ht
      subst ht
      exact .inl ⟨rfl, rfl, rfl, rfl⟩
  | succ n ih =>
    cases hb : s.blk.busy with
    | false =>
      obtain rfl := (State.runAgenda_of_not_busy hb _).symm.trans ht
      exact .inr ⟨by simpa [State.completed, hb] using hv, hr, n + 1, ha⟩
    | true =>
      rw [ha, List.replicate_succ, List.cons_append, State.runAgenda_cons_of_busy hb] at ht
      generalize hrest : List.replicate n Move.sequencer ++ Move.assertReset :: ms = rest at ht
      obtain ⟨hv', henv, hrst⟩ := State.move_sequencer (s := { s with agenda := rest }) hv
      have hagenda := (State.move_frame .sequencer { s with agenda := rest }).2
      have h := ih _ (hagenda.trans hrest.symm) (hrst.trans hr) hv' (hagenda ▸ ht)
      rwa [henv] at h

/-- Settles O56: the step that asserts reset, what every run keeps, and the run up to the reset planned. -/
theorem resetAbandonsTheCommand : Obligations.ResetAbandonsTheCommand := by
  refine ⟨fun s ms => step_of_assertReset, fun i s t hr he hrst => ?_, fun i s n ms hr hc ha t he => ?_⟩
  · obtain ⟨hlow, -⟩ := State.ready_iff.mp hr
    rcases exec_next he with ⟨hn, -⟩ | ⟨-, -, rfl⟩
    · exact absurd (hr.symm.trans hn) (by decide)
    · obtain ⟨hreset, hscript⟩ := State.run_reset (s.accepted i) hlow
      exact ⟨hreset hrst, hscript⟩
  · obtain ⟨hlow, -⟩ := State.ready_iff.mp hr
    have ht := Host.Outcome.next.inj ((exec_of_ready hr hc).symm.trans he)
    exact State.runAgenda_until_reset n ms (s.accepted i) t ha hlow (.inl rfl) ht

end Sys2Proof.Machine
end

section
/-! SUPPORT. The runs of START and STOP: what they leave unchanged, and what a bus that meets ENV2 leaves (R46, R111,
R112). -/

namespace Sys2Proof.Machine

/-- The induction over the run of a command on a bus that meets an obligation `p` (R46): what every micro-step
keeps, and every move of the agenda that meets `p`, the run keeps. -/
theorem State.runAgenda_keeps_of_meets {p : State → Move → Bool} {P : State → Prop}
    (hstep : ∀ s t, P s → s.seqStep = some t → P t) (hagenda : ∀ s a, P s → P { s with agenda := a })
    (ms : List Move) (hmove : ∀ m ∈ ms, ∀ s, P s → p s m = true → P (s.move m)) (s : State)
    (hs : P s) (hp : s.agendaMeets p ms = true) : P (State.runAgenda ms s) := by
  induction ms generalizing s with
  | nil => exact State.runQuiet_keeps hstep _ s hs
  | cons m ms ih =>
    cases hb : s.blk.busy with
    | false => rwa [State.runAgenda_of_not_busy hb]
    | true =>
      simp only [State.agendaMeets, hb, if_true, Bool.and_eq_true] at hp
      obtain ⟨hm, hms⟩ := hp
      rw [State.runAgenda_cons_of_busy hb]
      refine ih (fun m' h' => hmove m' (List.mem_cons_of_mem m h')) _ ?_ hms
      exact hmove m List.mem_cons_self _ (hagenda s ms hs) hm

theorem State.agendaMeets_of_forall {p : State → Move → Bool} (h : ∀ s m, p s m = true) (ms : List Move)
    (s : State) : s.agendaMeets p ms = true := by
  induction ms generalizing s with
  | nil => rfl
  | cons m ms ih => simp [State.agendaMeets, h, ih]

/-- With `OP` of START or STOP the sequencer is in that command's program, or at rest (R111, R112). -/
theorem Block.Shaped.upc_of_framing {b : Block} (h : b.Shaped) (ho : b.op = 1#3 ∨ b.op = 2#3) :
    b.upc = .idle ∨ (b.op = 1#3 ∧ ∃ l, b.upc = .start l) ∨ (b.op = 2#3 ∧ ∃ l, b.upc = .stop l) := by
  have hs := h.shape
  have hother : ∀ o : Opcode, o ≠ 1#3 → o ≠ 2#3 → b.op ≠ o := fun o h1 h2 hb =>
    ho.elim (fun h => h1 (hb.symm.trans h)) fun h => h2 (hb.symm.trans h)
  cases hu : b.upc with
  | idle => exact .inl rfl
  | init l => cases l <;> simp [Block.shape, hu, hother] at hs
  | start l => exact .inr (.inl ⟨by cases l <;> simp_all [Block.shape], l, rfl⟩)
  | stop l => exact .inr (.inr ⟨by cases l <;> simp_all [Block.shape], l, rfl⟩)
  | write l => cases l <;> simp [Block.shape, hu, hother] at hs
  | readAck l => cases l <;> simp [Block.shape, hu, hother] at hs
  | readNack l => cases l <;> simp [Block.shape, hu, hother] at hs
  | transfer l =>
    have ht : b.transferSetUp = true := by cases l <;> simp_all [Block.shape]
    cases hr : b.tret <;> simp [Block.transferSetUp, hr, RetLabel.opcode, hother] at ht

/-- At rest and all along START and STOP the data line is an output, and `SR` and `SDO` are at their resting
values (R32, R111, R112). -/
theorem Block.Shaped.rest_of_framing {b : Block} (h : b.Shaped) (ho : b.op = 1#3 ∨ b.op = 2#3) :
    b.dirSda = true ∧ b.sr = Config.idleHigh ∧ b.sdo = true ∧ b.xfer = false := by
  have hs := h.shape
  rcases h.upc_of_framing ho with hu | ⟨-, l, hu⟩ | ⟨-, l, hu⟩
  · simp_all [Block.shape, Block.settled, h.xfer, Label.shifting]
  · cases l <;> simp_all [Block.shape, Block.settled, h.xfer, Label.shifting]
  · cases l <;> simp_all [Block.shape, Block.settled, h.xfer, Label.shifting]

/-- The registers that only INIT and the byte commands write are those of `b` (R110, R120 to R122). -/
structure Block.KeepsTransfer (b c : Block) : Prop where
  cnt : c.cnt = b.cnt
  fOvf : c.fOvf = b.fOvf
  fColl : c.fColl = b.fColl
  tret : c.tret = b.tret
  tw : c.tw = b.tw
  cap : c.cap = b.cap
  rxb : c.rxb = b.rxb

theorem Block.KeepsTransfer.trans {b c d : Block} (h : b.KeepsTransfer c) (h' : c.KeepsTransfer d) :
    b.KeepsTransfer d :=
  ⟨h'.cnt.trans h.cnt, h'.fOvf.trans h.fOvf, h'.fColl.trans h.fColl, h'.tret.trans h.tret, h'.tw.trans h.tw,
    h'.cap.trans h.cap, h'.rxb.trans h.rxb⟩

theorem Block.keepsTransfer_lineUpdate (e : Env) (scl0 sda0 : Level) (b : Block) :
    b.KeepsTransfer (b.lineUpdate e scl0 sda0) := by
  constructor <;> simp

/-- The micro-steps of START and STOP write none of those registers, nor `CONTROL` and `OP` (R111, R112). -/
theorem Block.keepsTransfer_seqStep {e : Env} {b b' : Block} (hs : b.seqStep e = some b')
    (hu : (∃ l, b.upc = .start l) ∨ ∃ l, b.upc = .stop l) :
    b.KeepsTransfer b' ∧ b'.control = b.control ∧ b'.op = b.op := by
  obtain ⟨hconf, -, -, -, hcnt, -, -, hcall, hcap, hrxb, -, hop, -⟩ :=
    registersAreWrittenByTheirStepsAlone e b b' hs
  rcases hu with ⟨l, hu⟩ | ⟨l, hu⟩ <;> simp [hu] at hconf hcnt hcall hcap hrxb <;>
    exact ⟨⟨hcnt.1, hcnt.2, hconf.2.2, hcall.1, hcall.2, hcap, hrxb⟩, hconf.2.1, hop⟩

/-- `t` is a state of a run of START or STOP that began in `s` and has not been reset. -/
structure State.FramingRun (s t : State) : Prop where
  inv : t.inv = true
  rst : t.rst = false
  control : t.blk.control = Config.controlWord
  framing : t.blk.op = 1#3 ∨ t.blk.op = 2#3
  op : t.blk.op = s.blk.op
  script : t.script = s.script
  keeps : s.blk.KeepsTransfer t.blk

theorem State.FramingRun.shaped {s t : State} (h : s.FramingRun t) : t.blk.Shaped ∧ t.blk.Latched t.env :=
  Block.shaped_of_control (State.inv_iff.mp h.inv).1 h.control

/-- A micro-step of the run is one of START, where `OP` is START's, or of STOP. -/
theorem State.FramingRun.upc_of_seqStep {s t : State} {b : Block} (h : s.FramingRun t)
    (hb : t.blk.seqStep t.env = some b) :
    (t.blk.op = 1#3 ∧ ∃ l, t.blk.upc = .start l) ∨ (t.blk.op = 2#3 ∧ ∃ l, t.blk.upc = .stop l) := by
  refine (h.shaped.1.upc_of_framing h.framing).resolve_left fun hi => ?_
  obtain ⟨-, m, hm, -⟩ := Block.seqStep_some hb
  simp [hi, microcode] at hm

theorem State.FramingRun.seqStep {s t u : State} (h : s.FramingRun t) (hu : t.seqStep = some u) :
    s.FramingRun u := by
  have hinv := State.inv_seqStep h.inv hu
  obtain ⟨-, b, hb, rfl⟩ := State.seqStep_some hu
  obtain ⟨hkeeps, hcontrol, hop⟩ :=
    Block.keepsTransfer_seqStep hb ((h.upc_of_seqStep hb).imp And.right And.right)
  exact ⟨hinv, h.rst, hcontrol.trans h.control, hop ▸ h.framing, hop.trans h.op, h.script,
    h.keeps.trans hkeeps⟩

/-- A move other than reset: nothing, a micro-step, or a step of the environment (R6). -/
theorem State.move_cases_of_released {m : Move} {s : State} (hr : s.rst = false) (hm : m ≠ .assertReset) :
    s.move m = s ∨ s.seqStep = some (s.move m) ∨ ∃ l, m = .environment l ∧ s.move m = s.envStep l := by
  rcases State.move_cases m s with h | h | ⟨l, hl, -, h⟩ | ⟨ha, -⟩ | ⟨-, h⟩
  · exact .inl h
  · exact .inr (.inl h)
  · exact .inr (.inr ⟨l, hl, h⟩)
  · exact absurd ha hm
  · exact .inl (h.trans (by simp [State.releaseReset, ← hr]))

theorem State.FramingRun.move {s t : State} {m : Move} (h : s.FramingRun t) (hm : m ≠ .assertReset) :
    s.FramingRun (t.move m) := by
  rcases State.move_cases_of_released h.rst hm with he | hu | ⟨l, -, he⟩
  · exact he.symm ▸ h
  · exact h.seqStep hu
  · have hinv := State.inv_move m h.inv
    rw [he] at hinv ⊢
    exact ⟨hinv, h.rst, by simpa using h.control, by simpa using h.framing, by simpa using h.op, h.script,
      h.keeps.trans (Block.keepsTransfer_lineUpdate _ _ _ _)⟩

theorem State.FramingRun.withAgenda {s t : State} (h : s.FramingRun t) (a : List Move) :
    s.FramingRun { t with agenda := a } :=
  ⟨h.inv, h.rst, h.control, h.framing, h.op, h.script, h.keeps⟩

/-- A bus that meets ENV2 sets neither flag: the data line moves only while the clock reads low, and a clock line
that moves does not read high before and after (R46, R84). -/
theorem State.envStep_flags {s : State} {l : Line} (h : Move.env2 s (.environment l) = true) :
    (s.envStep l).blk.fStart = s.blk.fStart ∧ (s.envStep l).blk.fStop = s.blk.fStop := by
  have hclk : s.sclLine = true → s.blk.sclLine (s.env.flip l) = false := by
    intro hs
    cases l with
    | sda => simp [Move.env2, hs] at h
    | scl =>
      have he : s.env.scl = true := (Block.sclLine_eq_true.mp hs).2
      simp [Block.sclLine, he]
  cases hs : s.sclLine with
  | false => simp [Block.lineUpdate_fStart, Block.lineUpdate_fStop, startCondition, stopCondition, hs]
  | true => exact (Block.lineUpdate_low (hclk hs)).2

/-- The run of START or STOP on a bus that meets `p`, without reset: it is a framing run to its end, and keeps what
the micro-steps and the planned moves of the environment keep. -/
theorem State.FramingRun.run {s : State} {p : State → Move → Bool} {Q : State → Prop} (h : s.FramingRun s)
    (hr : s.noReset = true) (hp : s.agendaMeets p s.agenda = true)
    (hagenda : ∀ t a, Q t → Q { t with agenda := a })
    (hstep : ∀ t u, s.FramingRun t → Q t → t.seqStep = some u → Q u)
    (henv : ∀ t l, Move.environment l ∈ s.agenda → Q t → p t (.environment l) = true → Q (t.envStep l))
    (hq : Q s) : s.FramingRun s.run ∧ Q s.run := by
  refine State.runAgenda_keeps_of_meets (P := fun t => s.FramingRun t ∧ Q t)
    (fun t u ht hu => ⟨ht.1.seqStep hu, hstep t u ht.1 ht.2 hu⟩)
    (fun t a ht => ⟨ht.1.withAgenda a, hagenda t a ht.2⟩) s.agenda (fun m hm t ht hpm => ?_) s ⟨h, hq⟩ hp
  have hne : m ≠ .assertReset := by simpa using List.all_eq_true.mp hr m hm
  refine ⟨ht.1.move hne, ?_⟩
  rcases State.move_cases_of_released ht.1.rst hne with he | hu | ⟨l, rfl, he⟩
  · exact he.symm ▸ ht.2
  · exact hstep t _ ht.1 ht.2 hu
  · exact he.symm ▸ henv t l hm ht.2 hpm

/-- START and STOP leave the environment where no move of it is planned. -/
theorem State.FramingRun.run_env {s : State} (h : s.FramingRun s) (hr : s.noReset = true)
    (he : s.noEnvironment = true) : s.run.env = s.env := by
  refine (h.run (p := fun _ _ => true) (Q := fun t => t.env = s.env) hr
    (State.agendaMeets_of_forall (fun _ _ => rfl) _ _) (fun _ _ hq => hq)
    (fun t u _ hq hu => (State.seqStep_frame hu).1.trans hq) (fun t l hl _ _ => ?_) rfl).2
  have hall := List.all_eq_true.mp he _ hl
  cases l <;> simp at hall

/-- START leaves `F_STOP` on a bus that meets ENV2 (R111). -/
theorem State.FramingRun.run_fStop {s : State} (h : s.FramingRun s) (ho : s.blk.op = 1#3)
    (hr : s.noReset = true) (he : s.env2 = true) : s.run.blk.fStop = s.blk.fStop := by
  refine (h.run (p := Move.env2) (Q := fun t => t.blk.fStop = s.blk.fStop) hr he (fun _ _ hq => hq)
    (fun t u ht hq hu => ?_) (fun t l _ hq hp => (State.envStep_flags hp).2.trans hq) rfl).2
  obtain ⟨-, b, hb, rfl⟩ := State.seqStep_some hu
  obtain ⟨-, l, hl⟩ := (ht.upc_of_seqStep hb).resolve_right fun hstop => by simp [ht.op, ho] at hstop
  obtain ⟨hsh, hlatch⟩ := ht.shaped
  by_contra hne
  have hset := hsh.seqStep_fStop hlatch hb (by simp [hl]) fun hf => hne (hf.trans hq)
  simp [hl] at hset

/-- No micro-step of STOP leads back to P0. -/
theorem Block.seqStep_stop_upc {e : Env} {b b' : Block} {l : StopLabel} (h : b.seqStep e = some b')
    (hu : b.upc = .stop l) : b'.upc ≠ .stop .p0 := by
  obtain ⟨m, hm, ha⟩ := Block.seqStep_agrees h
  obtain rfl : stopProgram l = m := by simpa [hu, microcode] using hm
  rw [ha.upc]
  cases l <;> simp [stopProgram]

/-- STOP with the clock held low leaves `F_START` on a bus that meets ENV2: it pulls the data line low before it
lets the clock go (R112). -/
theorem State.FramingRun.run_fStart {s : State} (h : s.FramingRun s) (ho : s.blk.op = 2#3)
    (hclk : s.blk.outScl = false) (hr : s.noReset = true) (he : s.env2 = true) :
    s.run.blk.fStart = s.blk.fStart := by
  refine (h.run (p := Move.env2)
    (Q := fun t => t.blk.fStart = s.blk.fStart ∧ (t.blk.upc = .stop .p0 → t.blk.outScl = false)) hr he
    (fun _ _ hq => hq) (fun t u ht hq hu => ?_)
    (fun t l _ hq hp => ⟨(State.envStep_flags hp).1.trans hq.1, by simpa using hq.2⟩)
    ⟨rfl, fun _ => hclk⟩).2.1
  obtain ⟨-, b, hb, rfl⟩ := State.seqStep_some hu
  obtain ⟨-, l, hl⟩ := (ht.upc_of_seqStep hb).resolve_left fun hstart => by simp [ht.op, ho] at hstart
  obtain ⟨hsh, hlatch⟩ := ht.shaped
  refine ⟨?_, fun hp0 => absurd hp0 (Block.seqStep_stop_upc hb hl)⟩
  by_contra hne
  have hset := hsh.seqStep_fStart hlatch hb (by simp [hl]) fun hf => hne (hf.trans hq.1)
  obtain ⟨-, hhigh, hp0⟩ : b.fStart = true ∧ t.blk.sclLine t.env = true ∧ l = .p0 := by simpa [hl] using hset
  have hlow : t.blk.outScl = false := hq.2 (by rw [hl, hp0])
  exact absurd (hlow.symm.trans ((Block.sclLine_eq_true.mp hhigh).1 hsh.dirScl)) (by decide)

/-- The acceptance of START or STOP begins a framing run (R62, R63). -/
theorem State.framingRun_accepted {s : State} {i : Instr} (hi : i.opcode = 1#3 ∨ i.opcode = 2#3)
    (h : s.inv = true) (hr : s.ready = true) (hc : s.blk.control = Config.controlWord) :
    (s.accepted i).FramingRun (s.accepted i) :=
  ⟨State.inv_accepted h hr (.inr hc), (State.ready_iff.mp hr).1, hc, hi, rfl, rfl,
    ⟨rfl, rfl, rfl, rfl, rfl, rfl, rfl⟩⟩

/-- Settles O54: the run is a framing run to its end; the flags are those of its ENV2 lemmas. -/
theorem frameOfStartAndStop : Obligations.FrameOfStartAndStop := by
  intro i s t hi h hr hno he
  rcases exec_next he with ⟨hn, -⟩ | ⟨-, hc, rfl⟩
  · exact absurd (hr.symm.trans hn) (by decide)
  have hctl : s.blk.control = Config.controlWord :=
    hc.resolve_left fun h0 => by rcases hi with hi | hi <;> simp [h0] at hi
  obtain ⟨-, hx, hrest⟩ := Block.inv_of_not_busy (State.inv_iff.mp h).1 (State.ready_iff.mp hr).2
  obtain ⟨hsh, -, hset⟩ := hrest.resolve_left fun hz => absurd (hz.1.symm.trans hctl) (by decide)
  simp only [Block.settled, Bool.and_eq_true, beq_iff_eq] at hset
  obtain ⟨⟨⟨hdir, -⟩, hsr⟩, hsdo⟩ := hset
  have hrun := State.framingRun_accepted hi h hr hctl
  have hend : (s.accepted i).FramingRun (s.accepted i).run :=
    (hrun.run (p := fun _ _ => true) (Q := fun _ => True) hno (State.agendaMeets_of_forall (fun _ _ => rfl) _ _)
      (by simp) (by simp) (by simp) trivial).1
  obtain ⟨hdir', hsr', hsdo', hx'⟩ := hend.shaped.1.rest_of_framing hend.framing
  have hk := hend.keeps
  exact ⟨hdir'.trans hdir.symm, hend.shaped.1.dirScl.trans hsh.dirScl.symm, hsr'.trans hsr.symm,
    hsdo'.trans hsdo.symm, hk.cnt, hk.fOvf, hk.fColl, hend.control.trans hctl.symm, hx'.trans hx.symm, hk.tret,
    hk.tw, hk.cap, hk.rxb, hend.script, hend.rst.trans hrun.rst.symm, hrun.run_env hno,
    fun henv ho => hrun.run_fStop ho hno henv, fun henv ho hclk => hrun.run_fStart ho hclk hno henv⟩

end Sys2Proof.Machine
end

section
/-! SUPPORT. The run of a command on a bus as a sequence of steps, and what is read off its trail by an invariant
that grows with it (R6, R46, R166). -/

namespace Sys2Proof.Machine

/-- The events `es` lead from `s` to `t` without reset: micro-steps, changes of a line that meet `p` while a command
is in progress, and reads of the response. What is planned plays no part (log 2). -/
inductive State.BusRun (p : State → Move → Bool) : State → List Event → State → Prop
  | refl (s : State) : BusRun p s [] s
  | planned {s t : State} {es : List Event} (a : List Move) :
    BusRun p { s with agenda := a } es t → BusRun p s es t
  | micro {s u t : State} {es : List Event} :
    s.seqStep = some u → BusRun p u es t → BusRun p s (⟨some s.blk.upc, u⟩ :: es) t
  | environment {s t : State} {es : List Event} (l : Line) :
    s.blk.busy = true → p s (.environment l) = true → BusRun p (s.envStep l) es t →
      BusRun p s (⟨none, s.envStep l⟩ :: es) t
  | read {s t : State} {es : List Event} : BusRun p s es t → BusRun p s (⟨none, s⟩ :: es) t

theorem State.BusRun.trans {p : State → Move → Bool} {s t u : State} {es fs : List Event}
    (h : BusRun p s es t) (h' : BusRun p t fs u) : BusRun p s (es ++ fs) u := by
  induction h with
  | refl s => exact h'
  | planned a _ ih => exact .planned a (ih h')
  | micro hs _ ih => exact .micro hs (ih h')
  | environment l hb hp _ ih => exact .environment l hb hp (ih h')
  | read _ ih => exact .read (ih h')

theorem State.seqStep_of_not_busy {s : State} (hb : s.blk.busy = false) : s.seqStep = none := by
  simp [State.seqStep, Block.seqStep, hb]

theorem State.busRun_trailQuiet (p : State → Move → Bool) (n : Nat) (s : State) :
    BusRun p s (s.trailQuiet n) (s.runQuiet n) := by
  induction n generalizing s with
  | zero => exact .refl s
  | succ n ih =>
    unfold State.trailQuiet State.runQuiet
    split
    · exact .refl s
    · next t ht => exact .micro ht (ih t)

/-- One planned move, whether enabled or not, then the rest (R6). -/
theorem State.BusRun.eventOf {p : State → Move → Bool} {s t : State} {m : Move} {ms : List Move}
    {es : List Event} (hb : s.blk.busy = true) (hr : s.rst = false) (hm : m ≠ .assertReset)
    (hp : p { s with agenda := ms } m = true) (h : BusRun p ({ s with agenda := ms }.move m) es t) :
    BusRun p s (s.eventOf m ms ++ es) t := by
  refine .planned ms ?_
  unfold State.eventOf
  cases he : s.enabled m with
  | false =>
    rw [State.move_of_not_enabled (by simpa using he)] at h
    exact h
  | true =>
    cases m with
    | sequencer =>
      obtain ⟨u, hu⟩ : ∃ u, State.seqStep { s with agenda := ms } = some u :=
        Option.isSome_iff_exists.mp ((State.enabled_agenda .sequencer ms s).trans he)
      have hlabel : s.performs .sequencer = some s.blk.upc := if_pos he
      simp only [State.move, hu, Option.getD_some, if_true, hlabel] at h ⊢
      exact .micro hu h
    | environment l =>
      have hmove : State.move (.environment l) { s with agenda := ms } =
          State.envStep l { s with agenda := ms } := if_neg (by simp [hr])
      rw [hmove] at h ⊢
      exact .environment l hb hp h
    | readResponse => exact .read h
    | host => simp at he
    | wait => simp at he
    | assertReset => exact absurd rfl hm
    | releaseReset => simp [State.enabled, hr] at he

theorem State.move_rst {m : Move} {s : State} (hr : s.rst = false) (hm : m ≠ .assertReset) :
    (s.move m).rst = false := by
  rcases State.move_cases_of_released hr hm with h | h | ⟨l, -, h⟩
  · rwa [h]
  · exact (State.seqStep_frame h).2.1.trans hr
  · rwa [h]

/-- A command run without reset, in two parts: its planned moves, then the sequencer alone (R167 (a)). -/
theorem State.busRun_agenda {p : State → Move → Bool} {ms : List Move} {s : State} (hr : s.rst = false)
    (hno : .assertReset ∉ ms) (hp : s.agendaMeets p ms = true) :
    ∃ es, State.trailAgenda ms s = es ++ (s.afterAgenda ms).trailQuiet maxMicroSteps ∧
      State.runAgenda ms s = (s.afterAgenda ms).runQuiet maxMicroSteps ∧
      BusRun p s es (s.afterAgenda ms) := by
  induction ms generalizing s with
  | nil => exact ⟨[], rfl, rfl, .refl s⟩
  | cons m ms ih =>
    cases hb : s.blk.busy with
    | false =>
      have hq := State.seqStep_of_not_busy hb
      have ha : s.afterAgenda (m :: ms) = s := by simp [State.afterAgenda, hb]
      rw [ha]
      exact ⟨[], by simp [State.trailAgenda, hb, State.trailQuiet, maxMicroSteps, hq],
        by simp [State.runAgenda, hb, State.runQuiet, maxMicroSteps, hq], .refl s⟩
    | true =>
      simp only [State.agendaMeets, hb, if_true, Bool.and_eq_true] at hp
      obtain ⟨hne, hno⟩ : m ≠ .assertReset ∧ .assertReset ∉ ms := by
        simpa [eq_comm] using hno
      obtain ⟨es, htrail, hrun, hbus⟩ := ih (State.move_rst (s := { s with agenda := ms }) hr hne) hno hp.2
      have ha : s.afterAgenda (m :: ms) = State.afterAgenda ms ({ s with agenda := ms }.move m) := by
        simp [State.afterAgenda, hb]
      rw [ha]
      exact ⟨s.eventOf m ms ++ es, by simp [State.trailAgenda, hb, htrail],
        by simp [State.runAgenda, hb, hrun], .eventOf hb hr hne hp.1 hbus⟩

theorem State.assertReset_not_mem {s : State} (h : s.noReset = true) : Move.assertReset ∉ s.agenda := by
  intro hm
  simpa using List.all_eq_true.mp h _ hm

/-- The same of the machine's own agenda. -/
theorem State.busRun_planned {p : State → Move → Bool} {s : State} (hr : s.rst = false)
    (hno : s.noReset = true) (hp : s.agendaMeets p s.agenda = true) :
    ∃ es, s.trail = es ++ (s.afterAgenda s.agenda).trailQuiet maxMicroSteps ∧
      s.run = (s.afterAgenda s.agenda).runQuiet maxMicroSteps ∧ BusRun p s es (s.afterAgenda s.agenda) :=
  State.busRun_agenda hr (State.assertReset_not_mem hno) hp

/-- The trail of a command without reset is its run (R166). -/
theorem State.busRun_trail {p : State → Move → Bool} {s : State} (hr : s.rst = false)
    (hno : s.noReset = true) (hp : s.agendaMeets p s.agenda = true) : BusRun p s s.trail s.run := by
  obtain ⟨es, htrail, hrun, hbus⟩ := State.busRun_planned hr hno hp
  rw [htrail, hrun]
  exact hbus.trans (State.busRun_trailQuiet p _ _)

/-- What every step of a run shows, in order, read off the state before the step and its event. -/
def observed {α : Type} (f : State → Event → List α) : State → List Event → List α
  | _, [] => []
  | s, e :: es => f s e ++ observed f e.after es

/-- What is observed does not depend on what is planned, where no step's part does (log 2). -/
theorem observed_agenda {α : Type} {f : State → Event → List α}
    (hf : ∀ (s : State) (a : List Move) (e : Event), f { s with agenda := a } e = f s e) (s : State)
    (a : List Move) (es : List Event) : observed f { s with agenda := a } es = observed f s es := by
  cases es with
  | nil => rfl
  | cons e es => simp only [observed, hf]

/-- The induction over a run that carries what has been observed so far. -/
theorem State.BusRun.accumulates {α : Type} {p : State → Move → Bool} {f : State → Event → List α}
    {J : List α → State → Prop}
    (hf : ∀ (s : State) (a : List Move) (e : Event), f { s with agenda := a } e = f s e)
    (hagenda : ∀ xs s a, J xs s → J xs { s with agenda := a })
    (hread : ∀ s, f s ⟨none, s⟩ = [])
    (hmicro : ∀ xs s u, J xs s → s.seqStep = some u → J (xs ++ f s ⟨some s.blk.upc, u⟩) u)
    (henv : ∀ xs s l, J xs s → s.blk.busy = true → p s (.environment l) = true →
      J (xs ++ f s ⟨none, s.envStep l⟩) (s.envStep l))
    {s t : State} {es : List Event} (h : BusRun p s es t) {xs : List α} (hs : J xs s) :
    J (xs ++ observed f s es) t := by
  induction h generalizing xs with
  | refl s => simpa [observed] using hs
  | @planned s t es a _ ih =>
    rw [← observed_agenda hf s a es]
    exact ih (hagenda xs s a hs)
  | micro hu _ ih => simpa [observed] using ih (hmicro _ _ _ hs hu)
  | environment l hb hp _ ih => simpa [observed] using ih (henv _ _ l hs hb hp)
  | read _ ih => simpa [observed, hread] using ih hs

end Sys2Proof.Machine
end

section
/-! SUPPORT. The micro-steps a command has still to perform, and its termination (R167). -/

namespace Sys2Proof.Machine

/-! ## The labels to come -/

/-- The labels of one clock pulse (R95). -/
def pulseLabels : List Label :=
  [.transfer .t1, .transfer .t2, .transfer .t3, .transfer .t4, .transfer .t5, .transfer .t6]

/-- What follows the last pulse of a transfer (R95). -/
def closingLabels : List Label := [.transfer .t7, .transfer .t8, .transfer .t9, .transfer .t10]

/-- The pulses a transfer has still to make from T1, and its end (R96). -/
def pulsesLabels (n : Nat) : List Label := (List.replicate n pulseLabels).flatten ++ closingLabels

/-- A whole TRANSFER of `n` bits (R95). -/
def transferLabels (n : Nat) : List Label := .transfer .t0 :: pulsesLabels n

/-- The labels the command of a label performs, in order (R110 to R112, R120 to R122). -/
def Label.program : Label → List Label
  | .idle | .transfer _ => []
  | .init _ => [.init .i0, .init .iFin]
  | .start _ => [.start .s0, .start .s1, .start .s2, .start .s3, .start .s4, .start .s5, .start .s6, .start .sFin]
  | .stop _ => [.stop .p0, .stop .p1, .stop .p2, .stop .p3, .stop .p4, .stop .p5, .stop .pFin]
  | .write _ =>
    [.write .w0, .write .w1, .write .w2] ++ transferLabels 8 ++ [.write .w3, .write .w4] ++ transferLabels 1 ++
      [.write .wFin]
  | .readAck _ =>
    [.readAck .a0, .readAck .a1] ++ transferLabels 8 ++ [.readAck .a2, .readAck .a3] ++ transferLabels 1 ++
      [.readAck .aFin]
  | .readNack _ =>
    [.readNack .n0, .readNack .n1] ++ transferLabels 8 ++ [.readNack .n2, .readNack .n3] ++ transferLabels 1 ++
      [.readNack .nFin]

/-- A list of labels from the label `l` on. -/
def labelsFrom (l : Label) (ls : List Label) : List Label := ls.dropWhile (· != l)

/-- What a transfer has still to perform, its position told by the counter (R94, R96). -/
def Block.transferAhead (b : Block) (l : TransferLabel) : List Label :=
  match l with
  | .t0 => transferLabels (if b.tret.ofByte then 8 else 1)
  | .t1 | .t2 | .t3 | .t4 | .t5 =>
    labelsFrom (.transfer l) pulseLabels ++ pulsesLabels ((15 - b.cnt.toNat) / 2)
  | .t6 => .transfer .t6 :: pulsesLabels (if b.fOvf then 0 else (16 - b.cnt.toNat) / 2)
  | .t7 | .t8 | .t9 | .t10 => labelsFrom (.transfer l) closingLabels

/-- What the command in progress has still to perform, the micro-step at `UPC` included (R167). -/
def Block.ahead (b : Block) : List Label :=
  match b.upc with
  | .transfer l => b.transferAhead l ++ labelsFrom b.tret.toLabel b.tret.toLabel.program
  | l => labelsFrom l l.program

/-- In the first half of a pulse the counter is even: the strobe at T2 leaves the pulses still to come (R96). -/
theorem pulses_of_even {c : Count} (h : c.getLsbD 0 = false) :
    (15 - (c + 1#4).toNat) / 2 = (15 - c.toNat) / 2 ∧ (16 - c.toNat) / 2 = (15 - c.toNat) / 2 + 1 := by
  revert c; decide

/-- In the second half it is odd: the strobe at T5 wraps it in the last pulse (R96). -/
theorem pulses_of_odd {c : Count} (h : c.getLsbD 0 = true) :
    (15 - c.toNat) / 2 = if c = 15#4 then 0 else (16 - (c + 1#4).toNat) / 2 := by
  revert c; decide

theorem pulsesLabels_succ (n : Nat) : pulsesLabels (n + 1) = pulseLabels ++ pulsesLabels n := by
  simp [pulsesLabels, List.replicate_succ]

/-- A step of TRANSFER performs the first label ahead, by the label (R95). -/
theorem Block.Shaped.writes_ahead_transfer {b : Block} {l : TransferLabel} (h : b.Shaped)
    (hu : b.upc = .transfer l) :
    b.ahead = b.upc :: ((transferProgram l).writes b).ahead := by
  have hs := h.shape
  simp only [Block.shape, hu] at hs
  cases l with
  | t0 =>
    have hp : (if b.tret.ofByte then 8 else 1) = (15 - (b.tw.extractLsb' 0 4).toNat) / 2 + 1 := by
      cases hr : b.tret <;> simp_all [Block.transferSetUp, RetLabel.ofByte, Config.statusByteWord,
        Config.statusBitWord]
    simp [Block.ahead, Block.transferAhead, hu, transferProgram, hp, transferLabels, pulsesLabels_succ,
      labelsFrom, pulseLabels]
  | t1 => simp [Block.ahead, Block.transferAhead, hu, transferProgram, labelsFrom, pulseLabels]
  | t2 =>
    have hp := pulses_of_even (c := b.cnt)
    simp_all [Block.ahead, Block.transferAhead, transferProgram, labelsFrom, pulseLabels, Block.counting]
  | t3 => simp [Block.ahead, Block.transferAhead, hu, transferProgram, labelsFrom, pulseLabels]
  | t4 => simp [Block.ahead, Block.transferAhead, hu, transferProgram, labelsFrom, pulseLabels]
  | t5 =>
    have hp := pulses_of_odd (c := b.cnt)
    simp_all [Block.ahead, Block.transferAhead, transferProgram, labelsFrom, pulseLabels, Block.counting]
  | t6 =>
    have hp := pulses_of_even (c := b.cnt)
    cases ho : b.fOvf with
    | true => simp [Block.ahead, Block.transferAhead, hu, transferProgram, labelsFrom, ho, pulsesLabels, closingLabels]
    | false =>
      simp_all [Block.ahead, Block.transferAhead, transferProgram, labelsFrom, pulseLabels, pulsesLabels_succ]
  | t7 => simp [Block.ahead, Block.transferAhead, hu, transferProgram, labelsFrom, closingLabels]
  | t8 => simp [Block.ahead, Block.transferAhead, hu, transferProgram, labelsFrom, closingLabels]
  | t9 => simp [Block.ahead, Block.transferAhead, hu, transferProgram, labelsFrom, closingLabels]
  | t10 =>
    cases hr : b.tret <;>
      simp [Block.ahead, Block.transferAhead, hu, transferProgram, labelsFrom, closingLabels, hr, RetLabel.toLabel]

/-- Outside TRANSFER the labels ahead are read off the command's program. -/
theorem MicroStep.writes_ahead {b : Block} {m : MicroStep} (hm : microcode b.upc = some m)
    (ht : ∀ l, b.upc ≠ .transfer l) : b.ahead = b.upc :: (m.writes b).ahead := by
  generalize hu : b.upc = l at hm ht
  cases l, m, hm using microcode_cases with
  | init l => cases l <;> simp [Block.ahead, hu, initProgram, labelsFrom, Label.program]
  | start l => cases l <;> simp [Block.ahead, hu, startProgram, labelsFrom, Label.program]
  | stop l => cases l <;> simp [Block.ahead, hu, stopProgram, labelsFrom, Label.program]
  | write l =>
    cases l <;> simp only [Block.ahead, hu, writeProgram, MicroStep.writes_mk, MicroOp.writes, Block.goto_fields,
      Block.call_fields] <;> rfl
  | readAck l =>
    cases l <;> simp only [Block.ahead, hu, readAckProgram, MicroStep.writes_mk, MicroOp.writes, Block.goto_fields,
      Block.call_fields, Block.fin_fields] <;> rfl
  | readNack l =>
    cases l <;> simp only [Block.ahead, hu, readNackProgram, MicroStep.writes_mk, MicroOp.writes, Block.goto_fields,
      Block.call_fields, Block.fin_fields] <;> rfl
  | transfer l => exact absurd rfl (ht l)

theorem Block.AgreesButLines.ahead {b c : Block} (h : b.AgreesButLines c) : c.ahead = b.ahead := by
  simp only [Block.ahead, Block.transferAhead, h.upc, h.cnt, h.fOvf, h.tret]

/-- A micro-step performs the first label ahead (R80, R167). -/
theorem Block.ahead_seqStep {e : Env} {b b' : Block} (h : b.inv e = true) (hs : b.seqStep e = some b') :
    b.ahead = b.upc :: b'.ahead := by
  obtain ⟨m, hm, ha⟩ := Block.seqStep_agrees hs
  rw [ha.ahead]
  by_cases ht : ∃ l, b.upc = .transfer l
  · obtain ⟨l, hu⟩ := ht
    obtain rfl : transferProgram l = m := by simpa [hu, microcode] using hm
    have hsh := (Block.inv_cases h hs).resolve_left (by simp [hu])
    exact hsh.2.1.writes_ahead_transfer hu
  · exact MicroStep.writes_ahead hm fun l hu => ht ⟨l, hu⟩

end Sys2Proof.Machine
end

section
/-! SUPPORT. Termination: with the clock held low before a READ, only the environment can keep a command from its
end (R157, R167). -/

namespace Sys2Proof.Machine

/-- The clock is where a READ must find it, and every pulse leave it: held low up to T2, released at T3 (R98, R157). The
other labels have theirs by the shape. -/
def Block.ClockKept (b : Block) : Prop :=
  match b.upc with
  | .readAck .a0 | .readAck .a1 | .readNack .n0 | .readNack .n1
  | .transfer .t0 | .transfer .t1 | .transfer .t2 => b.outScl = false
  | .transfer .t3 => b.outScl = true
  | _ => True

theorem Block.AgreesButLines.clockKept {b c : Block} (h : b.AgreesButLines c) : c.ClockKept ↔ b.ClockKept := by
  simp only [Block.ClockKept, h.upc, h.outScl]

theorem Block.Shaped.writes_clockKept {b : Block} {m : MicroStep} (h : b.Shaped) (hk : b.ClockKept)
    (hm : microcode b.upc = some m) : (m.writes b).ClockKept := by
  have hs := h.shape
  simp only [Block.ClockKept] at hk
  generalize hu : b.upc = l at hm
  cases l, m, hm using microcode_cases with
  | init l => cases l <;> simp [Block.ClockKept, initProgram]
  | start l => cases l <;> simp [Block.ClockKept, startProgram]
  | stop l => cases l <;> simp [Block.ClockKept, stopProgram]
  | write l => cases l <;> simp_all [Block.ClockKept, writeProgram, Block.shape]
  | readAck l => cases l <;> simp_all [Block.ClockKept, readAckProgram, Block.shape]
  | readNack l => cases l <;> simp_all [Block.ClockKept, readNackProgram, Block.shape]
  | transfer l =>
    cases l with
    | t6 => cases ho : b.fOvf <;> simp_all [Block.ClockKept, transferProgram, Block.shape]
    | t10 => cases hr : b.tret <;> simp_all [Block.ClockKept, transferProgram, Block.shape, RetLabel.toLabel]
    | _ => simp_all [Block.ClockKept, transferProgram]

theorem Block.clockKept_seqStep {e : Env} {b b' : Block} (h : b.inv e = true) (hk : b.ClockKept)
    (hs : b.seqStep e = some b') : b'.ClockKept := by
  rcases Block.inv_cases h hs with hu | ⟨-, hsh, -⟩
  · rw [Block.seqStep_i0 hs hu]
    trivial
  · obtain ⟨m, hm, ha⟩ := Block.seqStep_agrees hs
    exact ha.clockKept.mpr (hsh.writes_clockKept hk hm)

theorem Block.clockKept_lineUpdate {e : Env} {scl0 sda0 : Level} {b : Block} (hk : b.ClockKept) :
    (b.lineUpdate e scl0 sda0).ClockKept :=
  (Block.lineUpdate_agrees _ _ _ _).clockKept.mpr hk

theorem Block.inv_busy {e : Env} {b : Block} (h : b.inv e = true) : b.busy = (b.upc != .idle) := by
  rcases Block.inv_iff.mp h with h | ⟨h, -⟩
  · exact h.busy
  · exact h.busy

/-- Where a command waits, it has released the clock (R90). -/
theorem Block.Shaped.outScl_at_wait {b : Block} (h : b.Shaped) (hk : b.ClockKept)
    (hu : b.upc = .start .s1 ∨ b.upc = .stop .p2 ∨ b.upc = .transfer .t3) : b.outScl = true := by
  have hs := h.shape
  rcases hu with hu | hu | hu
  · simp_all [Block.shape]
  · simp_all [Block.shape]
  · simpa [Block.ClockKept, hu] using hk

/-- With the environment's clock let go a command in progress is not blocked (R90, R167). -/
theorem Block.seqStep_enabled {e : Env} {b : Block} (h : b.inv e = true) (hk : b.ClockKept)
    (hb : b.busy = true) (he : e.scl = true) : ∃ b', b.seqStep e = some b' := by
  have hidle : b.upc ≠ .idle := by simpa [hb] using Block.inv_busy h
  obtain ⟨m, hm⟩ := Option.ne_none_iff_exists'.mp (mt microcode_eq_none.mp hidle)
  have hstep : b.seqStep e = m.op.perform e m.next b := by simp [Block.seqStep, hb, hm]
  rw [hstep]
  by_contra hne
  obtain ⟨hop, hlow⟩ := MicroOp.perform_eq_none.mp (by simpa [Option.eq_none_iff_forall_ne_some] using hne)
  have hu := (microcode_waitScl hm).mp hop
  have hsh : b.Shaped := ((Block.inv_iff.mp h).resolve_left fun hun => by
    rcases hun.upc with hi | ⟨hi, -⟩ <;> simp [hi] at hu).1
  rw [Block.sclLine_eq_outScl hsh.dirScl, hsh.outScl_at_wait hk hu, he] at hlow
  exact absurd hlow (by decide)

/-- `t` is a state of a run that can complete, and `ls` are the labels performed so far of the command whose labels are
`all`. -/
structure State.Completing (all ls : List Label) (t : State) : Prop where
  inv : t.blk.inv t.env = true
  rst : t.rst = false
  kept : t.blk.ClockKept
  labels : ls ++ t.blk.ahead = all
  answered : t.blk.busy = true ∨ t.blk.rspValid = true

theorem State.Completing.seqStep {all ls : List Label} {t u : State} (h : t.Completing all ls)
    (hu : t.seqStep = some u) : u.Completing all (ls ++ [t.blk.upc]) := by
  have hanswered := State.seqStep_busy_or_response hu
  obtain ⟨-, b, hb, rfl⟩ := State.seqStep_some hu
  exact ⟨Block.inv_seqStep h.inv hb, h.rst, Block.clockKept_seqStep h.inv h.kept hb,
    by simpa [Block.ahead_seqStep h.inv hb] using h.labels, hanswered⟩

theorem State.Completing.envStep {all ls : List Label} {t : State} (l : Line) (h : t.Completing all ls) :
    (t.envStep l).Completing all ls :=
  ⟨Block.inv_lineUpdate h.inv, h.rst, Block.clockKept_lineUpdate h.kept,
    by rw [State.envStep_parts l t |>.2.2.2.2, (Block.lineUpdate_agrees _ _ _ _).ahead]; exact h.labels,
    by simpa using h.answered⟩

theorem performed_eq_observed (s : State) (es : List Event) :
    performed es = observed (fun _ e => e.label.toList) s es := by
  induction es generalizing s with
  | nil => rfl
  | cons e es ih => cases hl : e.label <;> simp [performed, observed, hl, ← ih e.after]

/-- A run on any bus keeps what completion needs, and performs the labels ahead one by one. -/
theorem State.Completing.run {all ls : List Label} {p : State → Move → Bool} {s t : State} {es : List Event}
    (hs : s.Completing all ls) (h : BusRun p s es t) : t.Completing all (ls ++ performed es) := by
  rw [performed_eq_observed s]
  exact h.accumulates (J := fun ls s => s.Completing all ls) (fun _ _ _ => rfl)
    (fun _ _ _ h => ⟨h.inv, h.rst, h.kept, h.labels, h.answered⟩) (fun _ => rfl)
    (fun _ _ _ h hu => h.seqStep hu) (fun ls s l h _ _ => by simpa using h.envStep l) hs

/-- With the environment's clock let go the sequencer alone finishes what is ahead (R167 (a)). -/
theorem State.Completing.runQuiet {all ls : List Label} {t : State} (h : t.Completing all ls)
    (he : t.blk.busy = true → t.env.scl = true) (n : Nat) (hn : t.blk.ahead.length ≤ n) :
    (t.runQuiet n).blk.busy = false := by
  induction n generalizing t ls with
  | zero =>
    have hidle : t.blk.ahead = [] := List.length_eq_zero_iff.mp (Nat.le_zero.mp hn)
    by_contra hb
    have hbusy : t.blk.busy = true := by simpa [State.runQuiet] using hb
    obtain ⟨b, hs⟩ := Block.seqStep_enabled h.inv h.kept hbusy (he hbusy)
    exact absurd (hidle.symm.trans (Block.ahead_seqStep h.inv hs)) (by simp)
  | succ n ih =>
    cases hq : t.seqStep with
    | some u =>
      have hu := h.seqStep hq
      obtain ⟨-, b, hb, rfl⟩ := State.seqStep_some hq
      have hlen : t.blk.ahead.length = b.ahead.length + 1 := by simp [Block.ahead_seqStep h.inv hb]
      simp only [State.runQuiet, hq]
      exact ih hu (fun _ => he (Block.seqStep_some hb).1) (by simpa [hlen] using hn)
    | none =>
      by_contra hb
      have hbusy : t.blk.busy = true := by simpa [State.runQuiet, hq] using hb
      obtain ⟨b, hs⟩ := Block.seqStep_enabled h.inv h.kept hbusy (he hbusy)
      simp [State.seqStep_of_released h.rst, hs] at hq

/-- The acceptance of a command begins a run that can complete, a READ with the clock held low (R62, R157). -/
theorem State.completing_accepted {i : Instr} {s : State} (h : s.inv = true) (hr : s.ready = true)
    (hc : i.opcode = 0#3 ∨ s.blk.control = Config.controlWord)
    (hread : i.opcode = 4#3 ∨ i.opcode = 5#3 → s.blk.outScl = false) :
    (s.accepted i).Completing (labelsFrom (firstLabel i) (firstLabel i).program) [] :=
  ⟨(State.inv_iff.mp (State.inv_accepted h hr hc)).1, (State.ready_iff.mp hr).1,
    by cases i with
      | readAck d => exact hread (.inl rfl)
      | readNack d => exact hread (.inr rfl)
      | _ => trivial,
    by cases i <;> rfl, .inl rfl⟩

theorem length_program (i : Instr) :
    (labelsFrom (firstLabel i) (firstLabel i).program).length = microStepCount i := by
  cases i <;> rfl

/-- A command not in progress has nothing ahead. -/
theorem Block.ahead_of_not_busy {e : Env} {b : Block} (h : b.inv e = true) (hb : b.busy = false) : b.ahead = [] := by
  have hu : b.upc = .idle := by simpa [hb] using Block.inv_busy h
  simp [Block.ahead, hu, labelsFrom, Label.program]

/-- Settles O41: the planned moves leave what completion needs, and the sequencer alone performs the labels ahead. -/
theorem commandsTerminate : Obligations.CommandsTerminate := by
  intro i s h hr hc hread hno henv3
  have hstart := State.completing_accepted h hr hc hread
  have hrst : (s.accepted i).rst = false := (State.ready_iff.mp hr).1
  obtain ⟨es, htrail, hrun, hbus⟩ := State.busRun_planned (p := fun _ _ => true) hrst hno
    (State.agendaMeets_of_forall (fun _ _ => rfl) _ _)
  have hmid := hstart.run hbus
  have hend := hstart.run (hbus.trans (State.busRun_trailQuiet _ maxMicroSteps _))
  rw [← htrail, ← hrun, List.nil_append] at hend
  have hdone : (s.accepted i).run.blk.busy = false := by
    rw [hrun]
    refine hmid.runQuiet (fun hb => ?_) _ ?_
    · simpa only [State.env3, hb, Bool.not_true, Bool.false_or] using henv3
    · have hlen := congrArg List.length hmid.labels
      rw [length_program, List.length_append] at hlen
      have hmax : microStepCount i ≤ maxMicroSteps := by cases i <;> simp [microStepCount, maxMicroSteps]
      omega
  refine ⟨_, exec_of_ready hr hc, ?_, ?_⟩
  · simpa [State.completed, hdone] using hend.answered
  · have hlabels := hend.labels
    rw [Block.ahead_of_not_busy hend.inv hdone, List.append_nil] at hlabels
    rw [hlabels, length_program]
    rfl

end Sys2Proof.Machine
end

section
/-! SUPPORT. The lines at a command boundary, and INIT on a quiet bus (R32, R41 to R45, R49, R110). -/

namespace Sys2Proof.Machine

/-- The block pulls the clock line low (R41). -/
theorem Block.mScl_eq_false {b : Block} : b.mScl = false ↔ b.dirScl = true ∧ b.outScl = false := by
  simp [Block.mScl]

/-- The block pulls the data line low (R42). -/
theorem Block.mSda_eq_false {b : Block} :
    b.mSda = false ↔ b.dirSda = true ∧ (b.outSda = false ∨ b.sdo = false) := by
  cases ho : b.outSda <;> simp [Block.mSda, ho]

/-- Settles O9: a line is the AND of its two sides, and so low where one of them is. -/
theorem linesAreWiredAnd : Obligations.LinesAreWiredAnd := fun _ =>
  ⟨Bool.and_eq_false_iff.trans (or_congr Block.mScl_eq_false Iff.rfl),
    Bool.and_eq_false_iff.trans (or_congr Block.mSda_eq_false Iff.rfl)⟩

/-- The line update in one equation: four registers and nothing else (R84). -/
theorem Block.lineUpdate_eq (e : Env) (scl0 sda0 : Level) (b : Block) :
    b.lineUpdate e scl0 sda0 = { b with
      sr := (b.lineUpdate e scl0 sda0).sr, sdo := (b.lineUpdate e scl0 sda0).sdo
      fStart := (b.lineUpdate e scl0 sda0).fStart, fStop := (b.lineUpdate e scl0 sda0).fStop } := by
  unfold Block.lineUpdate
  split <;> rfl

/-- With the registers at rest a line update can set the two flags and no more (R32, R84). -/
theorem Block.lineUpdate_of_settled {e : Env} {scl0 sda0 : Level} {b : Block}
    (hc : b.control = Config.controlWord) (hx : b.xfer = false) (hs : b.settled = true) :
    b.lineUpdate e scl0 sda0 = { b with
      fStart := b.fStart || startCondition scl0 (b.sclLine e) sda0 e.sda
      fStop := b.fStop || stopCondition scl0 (b.sclLine e) sda0 e.sda } := by
  simp only [Block.settled, Bool.and_eq_true, beq_iff_eq] at hs
  obtain ⟨⟨⟨-, ho⟩, hr⟩, hd⟩ := hs
  have hsr : (b.lineUpdate e scl0 sda0).sr = b.sr := by simp [Block.lineUpdate_sr, hx]
  have hsdo : (b.lineUpdate e scl0 sda0).sdo = b.sdo := by
    rw [hd]
    exact Block.lineUpdate_sdo_of_idleHigh hr hd
  have hline : (b.lineUpdate e scl0 sda0).sdaLine e = e.sda := by
    simp [Block.sdaLine, Block.mSda, ho, hsdo, hd]
  rw [Block.lineUpdate_eq, Block.lineUpdate_fStart, Block.lineUpdate_fStop, hline, hsr, hsdo,
    Block.twm_of_control hc, Bool.true_and, Bool.true_and]

/-- Settles O58: at a boundary the registers are at rest, and a clock line that moves is not high twice. -/
theorem environmentAtABoundarySetsFlagsOnly : Obligations.EnvironmentAtABoundarySetsFlagsOnly := by
  intro s h hr hb hc
  obtain ⟨-, hx, hrest⟩ := Block.inv_of_not_busy (State.inv_iff.mp h).1 hb
  obtain ⟨hsh, -, hset⟩ := hrest.resolve_left fun hz => absurd (hz.1.symm.trans hc) (by decide)
  have hsda : s.sdaLine = s.env.sda := by
    simp only [Block.settled, Bool.and_eq_true] at hset
    simp [State.sdaLine, Block.sdaLine, Block.mSda, hset]
  have hmove (l : Line) : (s.move (.environment l)).blk = { s.blk with
      fStart := s.blk.fStart ||
        startCondition s.sclLine (s.blk.sclLine (s.env.flip l)) s.env.sda (s.env.flip l).sda
      fStop := s.blk.fStop ||
        stopCondition s.sclLine (s.blk.sclLine (s.env.flip l)) s.env.sda (s.env.flip l).sda } := by
    simp only [State.move, hr, Bool.false_eq_true, if_false, State.envStep_parts, hsda]
    exact Block.lineUpdate_of_settled hc hx hset
  constructor
  · rw [hmove]
    cases he : s.env.sda <;> simp [startCondition, stopCondition, he]
  · have hscl : s.blk.sclLine (s.env.flip .sda) = s.sclLine := rfl
    rw [hmove, hscl]
    simp [startCondition, stopCondition]

/-- INIT on a quiet bus: acceptance, I0, FIN (R62, R110). -/
theorem exec_init_of_quiet (d : Byte) {s : State} (hr : s.ready = true) (hq : s.quiet = true) :
    exec (.init d) s =
      .next { s with blk := ((s.accepted (.init d)).blk.configure.goto (.init .iFin)).fin .nothing } := by
  have ha : s.agenda = [] := by simpa [State.quiet] using hq
  have hrst : s.rst = false := (State.ready_iff.mp hr).1
  rw [exec_of_ready hr (.inl rfl), State.run, State.accepted_parts (.init d) s |>.2.2.2.1, ha]
  simp [State.runAgenda, State.runQuiet, maxMicroSteps, State.seqStep, hrst, Block.seqStep, microcode, firstLabel,
    initProgram, MicroOp.perform, State.accepted, ha]

/-- Settles O28: what the first INIT writes the second writes again. -/
theorem initIsIdempotent : Obligations.InitIsIdempotent := by
  intro d s t hr hq he
  rw [exec_init_of_quiet d hr hq] at he
  obtain rfl := Host.Outcome.next.inj he
  exact exec_init_of_quiet d (State.ready_iff.mpr ⟨(State.ready_iff.mp hr).1, rfl⟩) hq

end Sys2Proof.Machine
end

section
/-! SUPPORT. The start and stop conditions seen during a command (R46, R111, R112, R123, R162). -/

namespace Sys2Proof.Machine

/-- INIT moves the data line nowhere: the block lets it go before and after (R110, R162). -/
theorem Block.configure_sdaLine {e : Env} {b : Block} {l : Label} (h : b.inv e = true) (hu : b.upc = .init .i0) :
    (b.configure.goto l).sdaLine e = b.sdaLine e := by
  have hm : b.mSda = true := by
    rcases Block.inv_iff.mp h with h | ⟨h, -⟩
    · simp [Block.mSda, h.dirSda]
    · have hs := h.shape
      simp_all [Block.shape, Block.settled, Block.mSda]
  simp only [Block.sdaLine, hm]
  rfl

/-- A micro-step that moves the data line while the clock line reads high is S3 of START, or P0 or P4 of STOP
(R87, R111, R112). -/
theorem Block.seqStep_condition {e : Env} {b b' : Block} (h : b.inv e = true) (hs : b.seqStep e = some b')
    (hscl : b.sclLine e = true) (hscl' : b'.sclLine e = true) (hsda : b'.sdaLine e ≠ b.sdaLine e) :
    (b.upc = .start .s3 ∧ b.op = 1#3 ∧ b'.sdaLine e = false) ∨
      (b.upc = .stop .p0 ∧ b.op = 2#3 ∧ b'.sdaLine e = false) ∨
      (b.upc = .stop .p4 ∧ b.op = 2#3 ∧ b'.sdaLine e = true) := by
  rcases Block.inv_cases h hs with hu | ⟨hi, hsh, hl⟩
  · exact absurd (Block.seqStep_i0 hs hu ▸ Block.configure_sdaLine h hu) hsda
  · obtain ⟨m, hm, rfl⟩ := hl.seqStep hs hi
    rw [Block.lineUpdate_sclLine] at hscl'
    rw [Block.lineUpdate_sdaLine_of_high hscl'] at hsda ⊢
    have hshape := hsh.shape
    rcases hsh.writes_condition hm hi hscl hsda with ⟨hu | hu, hlow⟩ | ⟨hu, hlow⟩
    · simp_all [Block.shape]
    · simp_all [Block.shape]
    · simp_all [Block.shape]

/-- Under ENV2 a change of a line by the environment does not find the clock line high before and after (R46). -/
theorem State.envStep_sclLine_of_env2 {s : State} {l : Line} (h : Move.env2 s (.environment l) = true)
    (hs : s.sclLine = true) : (s.envStep l).sclLine = false := by
  cases l with
  | sda => simp [Move.env2, hs] at h
  | scl =>
    have he : s.env.scl = true := (Block.sclLine_eq_true.mp hs).2
    simp [State.sclLine, Block.sclLine, he]

/-- No micro-step leads to P0 or W0, which acceptance alone enters (R62). -/
theorem Block.seqStep_upc_ne_first {e : Env} {b b' : Block} (h : b.seqStep e = some b') :
    b'.upc ≠ .stop .p0 ∧ b'.upc ≠ .write .w0 := by
  obtain ⟨m, hm, ha⟩ := Block.seqStep_agrees h
  rw [ha.upc]
  generalize b.upc = l at hm
  cases l, m, hm using microcode_cases with
  | init l => cases l <;> simp [initProgram]
  | start l => cases l <;> simp [startProgram]
  | stop l => cases l <;> simp [stopProgram]
  | write l => cases l <;> simp [writeProgram]
  | readAck l => cases l <;> simp [readAckProgram]
  | readNack l => cases l <;> simp [readNackProgram]
  | transfer l =>
    cases l with
    | t6 => cases hf : b.fOvf <;> simp [transferProgram, hf]
    | t10 => cases hr : b.tret <;> simp [transferProgram, hr, RetLabel.toLabel]
    | _ => simp [transferProgram]

/-- What a step adds to the conditions of a trail (R9). -/
def conditionAt (s : State) (e : Event) : List Event :=
  if s.sclLine && e.after.sclLine && (s.sdaLine != e.after.sdaLine) then [e] else []

theorem conditions_eq_observed (s : State) (es : List Event) : conditions s es = observed conditionAt s es := by
  induction es generalizing s with
  | nil => rfl
  | cons e es ih =>
    simp only [conditions, observed, conditionAt, ih]
    split <;> rfl

theorem mem_conditionAt {s : State} {e x : Event} :
    x ∈ conditionAt s e ↔ x = e ∧ s.sclLine = true ∧ e.after.sclLine = true ∧ e.after.sdaLine ≠ s.sdaLine := by
  have hif : (s.sclLine && e.after.sclLine && (s.sdaLine != e.after.sdaLine)) = true ↔
      s.sclLine = true ∧ e.after.sclLine = true ∧ e.after.sdaLine ≠ s.sdaLine := by
    rw [Bool.and_eq_true, Bool.and_eq_true, bne_iff_ne, ne_comm, and_assoc]
  rw [conditionAt, List.mem_ite_nil_right, List.mem_singleton, hif, and_comm]

/-- The condition is START's or STOP's own; `clock` is the latch of the clock before the command (R111, R112). -/
def Event.OwnCondition (op : Opcode) (clock : Level) (e : Event) : Prop :=
  (op = 1#3 ∧ e.label = some (.start .s3) ∧ e.after.sdaLine = false) ∨
    (op = 2#3 ∧ e.label = some (.stop .p0) ∧ e.after.sdaLine = false ∧ clock = true) ∨
    (op = 2#3 ∧ e.label = some (.stop .p4) ∧ e.after.sdaLine = true)

/-- `t` is a state of a run of the command `op`, and `es` are the conditions seen so far. -/
structure State.OwnConditions (op : Opcode) (clock : Level) (es : List Event) (t : State) : Prop where
  inv : t.blk.inv t.env = true
  command : t.blk.op = op
  atP0 : t.blk.upc = .stop .p0 → t.blk.dirScl = true ∧ t.blk.outScl = clock
  own : ∀ e ∈ es, e.OwnCondition op clock

theorem State.OwnConditions.seqStep {op : Opcode} {clock : Level} {es : List Event} {t u : State}
    (h : t.OwnConditions op clock es) (hu : t.seqStep = some u) :
    u.OwnConditions op clock (es ++ conditionAt t ⟨some t.blk.upc, u⟩) := by
  obtain ⟨-, b, hb, rfl⟩ := State.seqStep_some hu
  obtain ⟨m, hm, ha⟩ := Block.seqStep_agrees hb
  have hop : b.op = t.blk.op := ha.op.trans (MicroStep.writes_writtenFrom hm).op
  refine ⟨Block.inv_seqStep h.inv hb, hop.trans h.command, fun hp => absurd hp (Block.seqStep_upc_ne_first hb).1, ?_⟩
  refine List.forall_mem_append.mpr ⟨h.own, fun x hx => ?_⟩
  obtain ⟨rfl, hscl, hscl', hsda⟩ := mem_conditionAt.mp hx
  rcases Block.seqStep_condition h.inv hb hscl hscl' hsda with ⟨hu, ho, hl⟩ | ⟨hu, ho, hl⟩ | ⟨hu, ho, hl⟩
  · exact .inl ⟨h.command.symm.trans ho, congrArg some hu, hl⟩
  · obtain ⟨hd, hk⟩ := h.atP0 hu
    exact .inr (.inl ⟨h.command.symm.trans ho, congrArg some hu, hl, hk ▸ (Block.sclLine_eq_true.mp hscl).1 hd⟩)
  · exact .inr (.inr ⟨h.command.symm.trans ho, congrArg some hu, hl⟩)

theorem State.OwnConditions.envStep {op : Opcode} {clock : Level} {es : List Event} {t : State} {l : Line}
    (h : t.OwnConditions op clock es) (hp : Move.env2 t (.environment l) = true) :
    (t.envStep l).OwnConditions op clock (es ++ conditionAt t ⟨none, t.envStep l⟩) := by
  refine ⟨Block.inv_lineUpdate h.inv, by simpa using h.command, by simpa using h.atP0,
    List.forall_mem_append.mpr ⟨h.own, fun x hx => ?_⟩⟩
  obtain ⟨-, hscl, hscl', -⟩ := mem_conditionAt.mp hx
  exact absurd ((State.envStep_sclLine_of_env2 hp hscl).symm.trans hscl') (by decide)

/-- Settles O48: the conditions of a run, step by step, are S3's, P0's and P4's. -/
theorem conditionsAreTheFramingCommandsOwn : Obligations.ConditionsAreTheFramingCommandsOwn := by
  intro i s h hr hc hno henv2
  have hbus : State.BusRun Move.env2 (s.accepted i) (s.accepted i).trail (s.accepted i).run :=
    State.busRun_trail (State.ready_iff.mp hr).1 hno henv2
  have hstart : (s.accepted i).OwnConditions i.opcode s.blk.outScl [] := by
    have hinv := (State.inv_iff.mp (State.inv_accepted h hr hc)).1
    refine ⟨hinv, rfl, fun hp => ⟨?_, rfl⟩, by simp⟩
    rcases Block.inv_iff.mp hinv with hun | ⟨hsh, -⟩
    · exact absurd hun.upc (by rw [hp]; simp)
    · exact hsh.dirScl
  rw [conditions_eq_observed]
  have hend := hbus.accumulates (J := State.OwnConditions i.opcode s.blk.outScl) (fun _ _ _ => rfl)
    (fun _ _ _ h => ⟨h.inv, h.command, h.atP0, h.own⟩) (fun s => by simp [conditionAt])
    (fun _ _ _ h hu => h.seqStep hu) (fun _ _ _ h _ hp => h.envStep hp) hstart
  exact hend.own

end Sys2Proof.Machine
end

section
/-! SUPPORT. Bytes as they pass through the shift register, most significant bit first (R14, R47, R82). -/

namespace Sys2Proof.Machine

/-- `SR` after some levels are shifted in (R82 (b)). -/
def shiftAll (v : Byte) (bits : List Level) : Byte := bits.foldl shiftIn v

@[simp] theorem shiftAll_nil (v : Byte) : shiftAll v [] = v := rfl

@[simp] theorem shiftAll_append_singleton (v : Byte) (bits : List Level) (bit : Level) :
    shiftAll v (bits ++ [bit]) = shiftIn (shiftAll v bits) bit := by
  simp [shiftAll]

theorem getLsbD_shiftIn (v : Byte) (bit : Level) {j : Nat} (hj : j < 8) :
    (shiftIn v bit).getLsbD j = if j = 0 then bit else v.getLsbD (j - 1) := by
  rw [shiftIn, BitVec.getLsbD_append]
  cases j with
  | zero => simp
  | succ j => simp [show j < 7 by omega]

/-- Bit 7 after `k` shifts is the bit `7 - k` of the byte loaded (R47). -/
theorem getLsbD_shiftAll (v : Byte) {bits : List Level} (h : bits.length < 8) :
    (shiftAll v bits).getLsbD 7 = v.getLsbD (7 - bits.length) := by
  induction bits generalizing v with
  | nil => rfl
  | cons bit bits ih =>
    rw [List.length_cons] at h
    change (shiftAll (shiftIn v bit) bits).getLsbD 7 = _
    rw [ih _ (by omega), getLsbD_shiftIn _ _ (by omega), if_neg (by omega), List.length_cons, Nat.sub_add_eq]

/-- What is shifted out does not count: two registers that agree in the bits left hold the same (R82 (b)). -/
theorem shiftAll_congr {v w : Byte} {bits : List Level}
    (h : ∀ j, j < 8 - bits.length → v.getLsbD j = w.getLsbD j) : shiftAll v bits = shiftAll w bits := by
  induction bits generalizing v w with
  | nil => exact BitVec.eq_of_getLsbD_eq h
  | cons bit bits ih =>
    refine ih fun j hj => ?_
    rw [getLsbD_shiftIn _ _ (by omega), getLsbD_shiftIn _ _ (by omega)]
    split
    · rfl
    · next hne => exact h (j - 1) (by rw [List.length_cons]; omega)

/-- Eight levels shifted in make the byte, whatever was loaded (R47, R97). -/
theorem shiftAll_of_length {v : Byte} {bits : List Level} (h : bits.length = 8) :
    shiftAll v bits = packByte bits :=
  shiftAll_congr (by simp [h])

theorem packByte_bitsOf (d : Byte) : packByte (bitsOf d) = d := by
  apply BitVec.eq_of_getLsbD_eq
  intro j hj
  simp only [packByte, bitsOf, List.foldl_cons, List.foldl_nil]
  interval_cases j <;> simp [getLsbD_shiftIn, -BitVec.getLsbD_eq_getElem]

theorem getElem?_bitsOf (d : Byte) {k : Nat} (h : k < 8) : (bitsOf d)[k]? = some (d.getLsbD (7 - k)) := by
  interval_cases k <;> rfl

end Sys2Proof.Machine
end

section
/-! SUPPORT. The state of a byte command on a bus that meets ENV1: where its clock is, and how many levels it has
sampled (R46, R96, R97). -/

namespace Sys2Proof.Machine

/-- A block in a byte command, on a bus that pulls no high clock line low (R46, R120 to R122). -/
structure Block.ByteRun (e : Env) (b : Block) : Prop where
  shaped : b.Shaped
  latched : b.Latched e
  byte : b.op = 3#3 ∨ b.op = 4#3 ∨ b.op = 5#3
  kept : b.ClockKept
  high : b.upc = .transfer .t4 ∨ b.upc = .transfer .t5 → e.scl = true

theorem Block.ByteRun.inv {e : Env} {b : Block} (h : b.ByteRun e) : b.inv e = true :=
  Block.inv_iff.mpr (.inr ⟨h.shaped, h.latched⟩)

theorem Block.ByteRun.sclLine {e : Env} {b : Block} (h : b.ByteRun e) (e' : Env) :
    b.sclLine e' = (b.outScl && e'.scl) :=
  Block.sclLine_eq_outScl h.shaped.dirScl

/-- In a byte command the sequencer is in that command's program, in TRANSFER, or at rest (R120 to R122). -/
theorem Block.ByteRun.upc_cases {e : Env} {b : Block} (h : b.ByteRun e) :
    b.upc = .idle ∨ (b.op = 3#3 ∧ ∃ l, b.upc = .write l) ∨ (b.op = 4#3 ∧ ∃ l, b.upc = .readAck l) ∨
      (b.op = 5#3 ∧ ∃ l, b.upc = .readNack l) ∨ ∃ l, b.upc = .transfer l := by
  have hs := h.shaped.shape
  have hb := h.byte
  cases hu : b.upc with
  | idle => exact .inl rfl
  | init l => cases l <;> simp_all [Block.shape]
  | start l => cases l <;> simp_all [Block.shape]
  | stop l => cases l <;> simp_all [Block.shape]
  | write l => exact .inr (.inl ⟨by cases l <;> simp_all [Block.shape], l, rfl⟩)
  | readAck l => exact .inr (.inr (.inl ⟨by cases l <;> simp_all [Block.shape], l, rfl⟩))
  | readNack l => exact .inr (.inr (.inr (.inl ⟨by cases l <;> simp_all [Block.shape], l, rfl⟩)))
  | transfer l => exact .inr (.inr (.inr (.inr ⟨l, rfl⟩)))

/-- The split of a fact about the micro-steps of a byte command (R95, R120 to R122). -/
theorem Block.ByteRun.micro_cases {e : Env} {b : Block} (h : b.ByteRun e) {P : MicroStep → Prop}
    (write : ∀ l, b.op = 3#3 → b.upc = .write l → P (writeProgram l))
    (readAck : ∀ l, b.op = 4#3 → b.upc = .readAck l → P (readAckProgram l))
    (readNack : ∀ l, b.op = 5#3 → b.upc = .readNack l → P (readNackProgram l))
    (transfer : ∀ l, b.upc = .transfer l → P (transferProgram l)) {m : MicroStep}
    (hm : microcode b.upc = some m) : P m := by
  rcases h.upc_cases with hu | ⟨ho, l, hu⟩ | ⟨ho, l, hu⟩ | ⟨ho, l, hu⟩ | ⟨l, hu⟩
  · simp [hu, microcode] at hm
  · obtain rfl : writeProgram l = m := by simpa [hu, microcode] using hm
    exact write l ho hu
  · obtain rfl : readAckProgram l = m := by simpa [hu, microcode] using hm
    exact readAck l ho hu
  · obtain rfl : readNackProgram l = m := by simpa [hu, microcode] using hm
    exact readNack l ho hu
  · obtain rfl : transferProgram l = m := by simpa [hu, microcode] using hm
    exact transfer l hu

theorem Block.ByteRun.upc_ne_i0 {e : Env} {b : Block} (h : b.ByteRun e) : b.upc ≠ .init .i0 := by
  rcases h.upc_cases with hu | ⟨-, l, hu⟩ | ⟨-, l, hu⟩ | ⟨-, l, hu⟩ | ⟨l, hu⟩ <;> simp [hu]

/-- T4 is entered from T3, which waits for the clock line to read high, and T5 from T4 (R95). -/
theorem Block.ByteRun.high_seqStep {e : Env} {b b' : Block} (h : b.ByteRun e) (hs : b.seqStep e = some b')
    (hu : b'.upc = .transfer .t4 ∨ b'.upc = .transfer .t5) : e.scl = true := by
  obtain ⟨m, hm, hw, -⟩ := Block.seqStep_phases hs
  obtain ⟨m', hm', ha⟩ := Block.seqStep_agrees hs
  obtain rfl := Option.some.inj (hm.symm.trans hm')
  rw [ha.upc] at hu
  refine h.micro_cases (P := fun m => (m.op = .waitScl → b.sclLine e = true) →
      (m.writes b).upc = .transfer .t4 ∨ (m.writes b).upc = .transfer .t5 → e.scl = true)
    (fun l _ _ => ?_) (fun l _ _ => ?_) (fun l _ _ => ?_) (fun l hl => ?_) hm hw hu
  · cases l <;> simp [writeProgram]
  · cases l <;> simp [readAckProgram]
  · cases l <;> simp [readNackProgram]
  · cases l with
    | t3 => exact fun hw _ => (Block.sclLine_eq_true.mp (hw rfl)).2
    | t4 => exact fun _ _ => h.high (.inl hl)
    | t6 => cases ho : b.fOvf <;> simp [transferProgram, ho]
    | t10 => simp [transferProgram, RetLabel.toLabel_ne_transfer]
    | _ => simp [transferProgram]

theorem Block.ByteRun.seqStep {e : Env} {b b' : Block} (h : b.ByteRun e) (hs : b.seqStep e = some b') :
    b'.ByteRun e := by
  obtain ⟨m, hm, ha⟩ := Block.seqStep_agrees hs
  have hop : b'.op = b.op := ha.op.trans (MicroStep.writes_writtenFrom hm).op
  have hcontrol : b'.control = Config.controlWord :=
    ha.control.trans (MicroStep.writes_control hm h.shaped.control h.shaped.dirScl).1
  obtain ⟨hsh, hl⟩ := Block.shaped_of_control (Block.inv_seqStep h.inv hs) hcontrol
  exact ⟨hsh, hl, hop.symm ▸ h.byte, Block.clockKept_seqStep h.inv h.kept hs, h.high_seqStep hs⟩

/-- Between T3 and the strobe at T5 the clock line reads high (R46, R97). -/
theorem Block.ByteRun.sclLine_high {e : Env} {b : Block} (h : b.ByteRun e)
    (hu : b.upc = .transfer .t4 ∨ b.upc = .transfer .t5) : b.sclLine e = true := by
  have hs := h.shaped.shape
  rw [h.sclLine, h.high hu]
  rcases hu with hu | hu <;> simp_all [Block.shape]

/-- ENV1 at the level of the lines: the environment does not change a clock line that reads high (R46). -/
theorem State.env1_scl {s : State} {l : Line} (h : Move.env1 s (.environment l) = true)
    (hs : s.sclLine = true) : (s.env.flip l).scl = s.env.scl := by
  cases l with
  | sda => rfl
  | scl =>
    have he : s.env.scl = true := (Block.sclLine_eq_true.mp hs).2
    simp [Move.env1, hs, he] at h

theorem Block.ByteRun.envStep {s : State} {l : Line} (h : s.blk.ByteRun s.env)
    (hp : Move.env1 s (.environment l) = true) : (s.envStep l).blk.ByteRun (s.envStep l).env := by
  obtain ⟨hsh, hl⟩ := h.shaped.lineUpdate (e := s.env.flip l) (scl0 := s.sclLine) (sda0 := s.sdaLine)
  refine ⟨hsh, hl, by simpa using h.byte, Block.clockKept_lineUpdate h.kept, fun hu => ?_⟩
  have hu' : s.blk.upc = .transfer .t4 ∨ s.blk.upc = .transfer .t5 := by simpa using hu
  exact (State.env1_scl hp (h.sclLine_high hu')).trans (h.high hu')

/-! ## The number of levels sampled -/

/-- The pulses that a number of edges makes, counted from the preset of a byte or of one bit (R96). -/
def pulsesOf (ofByte : Bool) (edges : Nat) : Nat := (edges - if ofByte then 0 else 14) / 2

/-- The edges made in a transfer, from the counter, its wrap and, at T3, the clock line: an edge counts once the line
has followed it (R16, R89). -/
def Block.edges (e : Env) (b : Block) (l : TransferLabel) : Nat :=
  match l with
  | .t0 => 0
  | .t1 | .t2 => b.cnt.toNat
  | .t3 => if b.sclLine e then b.cnt.toNat + 1 else b.cnt.toNat
  | .t4 | .t5 => b.cnt.toNat + 1
  | .t6 => if b.fOvf then 16 else b.cnt.toNat
  | .t7 | .t8 | .t9 | .t10 => 16

/-- The levels sampled before the transfer in progress (R120 to R122). -/
def RetLabel.samplesBefore (r : RetLabel) : Nat := if r.ofByte then 0 else 8

/-- The levels a byte command has sampled (R97, R120 to R122). -/
def Block.samplesTaken (e : Env) (b : Block) : Nat :=
  match b.upc with
  | .transfer l => b.tret.samplesBefore + pulsesOf b.tret.ofByte (b.edges e l)
  | .write .w3 | .write .w4 | .readAck .a2 | .readAck .a3 | .readNack .n2 | .readNack .n3 => 8
  | .write .wFin | .readAck .aFin | .readNack .nFin | .idle => 9
  | _ => 0

/-- Pulses from an even count, at T1 and T2. -/
theorem pulsesOf_even {c : Count} {o : Bool} (h : c.getLsbD 0 = false) (hr : o = true ∨ 14#4 ≤ c) :
    pulsesOf o (c + 1#4).toNat = pulsesOf o c.toNat ∧
      pulsesOf o ((c + 1#4).toNat + 1) = pulsesOf o c.toNat + 1 ∧
      pulsesOf o c.toNat < if o then 8 else 1 := by
  revert c o; decide

/-- Pulses from an odd count, at T3 to T5. -/
theorem pulsesOf_odd {c : Count} {o : Bool} (h : c.getLsbD 0 = true) (hr : o = true ∨ 14#4 ≤ c) :
    pulsesOf o (c.toNat + 1) = pulsesOf o c.toNat + 1 ∧
      (pulsesOf o (if c = 15#4 then 16 else (c + 1#4).toNat) = pulsesOf o (c.toNat + 1)) ∧
      pulsesOf o c.toNat < if o then 8 else 1 := by
  revert c o; decide

/-- A step of TRANSFER takes a sample at T2, where the clock line follows the strobe, and nowhere else (R97). -/
theorem Block.ByteRun.writes_samplesTaken_transfer {e : Env} {b : Block} {l : TransferLabel} (h : b.ByteRun e)
    (hu : b.upc = .transfer l) (hw : l = .t3 → b.sclLine e = true) :
    ((transferProgram l).writes b).samplesTaken e =
      b.samplesTaken e + if l = .t2 ∧ e.scl = true then 1 else 0 := by
  have hs := h.shaped.shape
  have hk := h.kept
  have hd := h.shaped.dirScl
  simp only [Block.shape, Block.ClockKept, hu] at hs hk
  cases l with
  | t0 =>
    cases hr : b.tret <;> simp_all [Block.samplesTaken, Block.edges, transferProgram, Block.transferSetUp, pulsesOf,
      RetLabel.samplesBefore, RetLabel.ofByte, Config.statusByteWord, Config.statusBitWord]
  | t1 => simp [Block.samplesTaken, hu, transferProgram, Block.edges]
  | t2 =>
    have hc := pulsesOf_even (c := b.cnt) (o := b.tret.ofByte)
    cases he : e.scl <;>
      simp_all [Block.samplesTaken, Block.edges, transferProgram, Block.counting, Block.sclLine, Block.mScl,
        Nat.add_assoc]
  | t3 => simp [Block.samplesTaken, hu, transferProgram, Block.edges, hw rfl]
  | t4 => simp [Block.samplesTaken, hu, transferProgram, Block.edges]
  | t5 =>
    have hc := pulsesOf_odd (c := b.cnt) (o := b.tret.ofByte)
    simp_all [Block.samplesTaken, Block.edges, transferProgram, Block.counting]
  | t6 => cases ho : b.fOvf <;> simp_all [Block.samplesTaken, Block.edges, transferProgram]
  | t7 => simp [Block.samplesTaken, hu, transferProgram, Block.edges]
  | t8 => simp [Block.samplesTaken, hu, transferProgram, Block.edges]
  | t9 => simp [Block.samplesTaken, hu, transferProgram, Block.edges]
  | t10 =>
    cases hr : b.tret <;> simp_all [Block.samplesTaken, Block.edges, transferProgram, Block.transferSetUp, pulsesOf,
      RetLabel.samplesBefore, RetLabel.ofByte, RetLabel.toLabel, RetLabel.opcode]

/-- A micro-step of a byte command takes a sample at T2, where the clock line follows the strobe, and nowhere else
(R97). -/
theorem Block.ByteRun.writes_samplesTaken {e : Env} {b : Block} {m : MicroStep} (h : b.ByteRun e)
    (hm : microcode b.upc = some m) (hw : m.op = .waitScl → b.sclLine e = true) :
    (m.writes b).samplesTaken e =
      b.samplesTaken e + if b.upc = .transfer .t2 ∧ e.scl = true then 1 else 0 := by
  refine h.micro_cases (P := fun m => (m.op = .waitScl → b.sclLine e = true) → (m.writes b).samplesTaken e =
      b.samplesTaken e + if b.upc = .transfer .t2 ∧ e.scl = true then 1 else 0)
    (fun l _ hl _ => ?_) (fun l _ hl _ => ?_) (fun l _ hl _ => ?_) (fun l hl hw => ?_) hm hw
  · cases l <;> simp [Block.samplesTaken, hl, writeProgram, RetLabel.samplesBefore, RetLabel.ofByte, pulsesOf,
      Block.edges]
  · cases l <;> simp [Block.samplesTaken, hl, readAckProgram, RetLabel.samplesBefore, RetLabel.ofByte, pulsesOf,
      Block.edges]
  · cases l <;> simp [Block.samplesTaken, hl, readNackProgram, RetLabel.samplesBefore, RetLabel.ofByte, pulsesOf,
      Block.edges]
  · simpa [hl] using h.writes_samplesTaken_transfer hl fun ht => hw (by rw [ht]; rfl)

end Sys2Proof.Machine
end

section
/-! SUPPORT. The levels a byte command samples, and where it keeps them (R97, R120 to R122). -/

namespace Sys2Proof.Machine

/-- The byte in `SR` when the first transfer of the command begins: `ARG` in a WRITE, else the idle-high pattern
(R120 to R122). -/
def Block.byteSent (b : Block) : Byte := if b.op = 3#3 then b.arg else Config.idleHigh

/-- The byte in `SR` when the second begins: the ACK of READ_ACK, else the idle-high pattern (R120 to R122). -/
def Block.answerSent (b : Block) : Byte := if b.op = 4#3 then Config.allZero else Config.idleHigh

/-- The byte in `SR` when the transfer in progress begins. -/
def Block.pattern (b : Block) : Byte := if b.tret.ofByte then b.byteSent else b.answerSent

/-- What the block puts on the data line in the nine pulses (R97). -/
def Block.drivenBits (b : Block) : List Level := bitsOf b.byteSent ++ [b.answerSent.getLsbD 7]

/-- `RXB` holds the byte of a READ: from its second transfer on (R121, R122). -/
def Block.holdsByte (b : Block) : Bool :=
  match b.upc with
  | .readAck .a3 | .readAck .aFin | .readNack .n3 | .readNack .nFin => true
  | .idle => b.op != 3#3
  | .transfer _ => b.op != 3#3 && !b.tret.ofByte
  | _ => false

/-- What `CAP` holds of the levels sampled, where the command still reads it (R95, R120 to R122). -/
def Block.Captured (levels : List Level) (b : Block) : Prop :=
  match b.upc with
  | .transfer .t9 | .transfer .t10 => b.cap = shiftAll b.pattern (levels.drop b.tret.samplesBefore)
  | .readAck .a2 | .readNack .n2 => b.cap = packByte levels
  | .write .wFin => b.cap = shiftAll Config.idleHigh (levels.drop 8)
  | .idle => b.op = 3#3 → b.cap = shiftAll Config.idleHigh (levels.drop 8)
  | _ => True

/-- `xs` are the samples a byte command has taken, and the block holds what they say. -/
structure Block.Sampled (e : Env) (xs : List Sample) (b : Block) : Prop where
  taken : xs.length = b.samplesTaken e
  driven : xs.map Sample.driven = b.drivenBits.take xs.length
  level : ∀ x ∈ xs, x.level = (x.driven && x.env)
  sr : b.upc.shifting = true ∨ b.upc = .transfer .t0 →
    b.sr = shiftAll b.pattern ((xs.map Sample.level).drop b.tret.samplesBefore)
  captured : b.Captured (xs.map Sample.level)
  saved : b.holdsByte = true → b.rxb = packByte ((xs.map Sample.level).take 8)
  answered : b.upc = .idle →
    (b.rspAck, b.rspData) = b.resultOf (if b.op = 3#3 then .acknowledge else .received)

theorem Block.AgreesButLines.samplesTaken {e e' : Env} {b c : Block} (ha : b.AgreesButLines c)
    (hline : b.upc = .transfer .t3 → c.sclLine e' = b.sclLine e) : c.samplesTaken e' = b.samplesTaken e := by
  have hedges : ∀ l, b.upc = .transfer l → c.edges e' l = b.edges e l := by
    intro l hu
    cases l <;> simp_all [Block.edges, ha.cnt, ha.fOvf]
  simp only [Block.samplesTaken, ha.upc, ha.tret]
  split
  · next l hu => rw [hedges l hu]
  all_goals rfl

/-- A step that takes no sample and moves no label leaves what has been sampled. -/
theorem Block.Sampled.congr {e e' : Env} {xs : List Sample} {b c : Block} (h : b.Sampled e xs)
    (ha : b.AgreesButLines c) (hsr : c.sr = b.sr)
    (hline : b.upc = .transfer .t3 → c.sclLine e' = b.sclLine e) : c.Sampled e' xs := by
  have hpattern : c.pattern = b.pattern := by
    simp only [Block.pattern, Block.byteSent, Block.answerSent, ha.tret, ha.op, ha.arg]
  refine ⟨h.taken.trans (ha.samplesTaken hline).symm, ?_, h.level, ?_, ?_, ?_, ?_⟩
  · simpa only [Block.drivenBits, Block.byteSent, Block.answerSent, ha.op, ha.arg] using h.driven
  · simpa only [hpattern, ha.upc, ha.tret, hsr] using h.sr
  · simpa only [Block.Captured, hpattern, ha.upc, ha.tret, ha.cap, ha.op] using h.captured
  · simpa only [Block.holdsByte, ha.upc, ha.op, ha.tret, ha.rxb] using h.saved
  · simpa only [Block.resultOf, Block.acknowledged, ha.upc, ha.rspAck, ha.rspData, ha.op, ha.cap, ha.rxb]
      using h.answered

/-! ## A step that takes a sample -/

/-- Before a sample the transfer in progress has not taken its last (R96). -/
theorem Block.ByteRun.samplesTaken_lt {e : Env} {b : Block} (h : b.ByteRun e)
    (hu : b.upc = .transfer .t2 ∨ b.upc = .transfer .t3) (hlow : b.sclLine e = false) :
    ∃ k, b.samplesTaken e = b.tret.samplesBefore + k ∧ k < if b.tret.ofByte then 8 else 1 := by
  have hs := h.shaped.shape
  refine ⟨pulsesOf b.tret.ofByte b.cnt.toNat, ?_⟩
  rcases hu with hu | hu
  · have hc := pulsesOf_even (c := b.cnt) (o := b.tret.ofByte)
    simp_all [Block.samplesTaken, Block.edges, Block.shape, Block.counting]
  · have hc := pulsesOf_odd (c := b.cnt) (o := b.tret.ofByte)
    simp_all [Block.samplesTaken, Block.edges, Block.shape, Block.counting]

theorem Block.getElem?_drivenBits (b : Block) {k : Nat} (hk : k < if b.tret.ofByte then 8 else 1) :
    b.drivenBits[b.tret.samplesBefore + k]? = some (b.pattern.getLsbD (7 - k)) := by
  unfold Block.drivenBits Block.pattern RetLabel.samplesBefore
  cases hr : b.tret.ofByte with
  | true =>
    simp only [hr, if_true] at hk
    rw [if_pos rfl, Nat.zero_add, List.getElem?_append_left (by simpa [bitsOf] using hk), getElem?_bitsOf _ hk]
    rfl
  | false =>
    obtain rfl : k = 0 := by simpa [hr] using hk
    rfl

/-- Before a sample the block puts the next of its nine bits on the data line: the latch follows `SR[7]`, and where
the line is an input the pattern is the idle-high one (R15, R97). -/
theorem Block.Sampled.mSda {e : Env} {xs : List Sample} {b : Block} (hx : b.Sampled e xs) (h : b.ByteRun e)
    (hu : b.upc = .transfer .t2 ∨ b.upc = .transfer .t3) (hlow : b.sclLine e = false) :
    b.drivenBits[xs.length]? = some b.mSda := by
  obtain ⟨k, htaken, hk⟩ := h.samplesTaken_lt hu hlow
  have hk8 : k < 8 := by grind
  have hlen : xs.length = b.tret.samplesBefore + k := hx.taken.trans htaken
  have hsr := hx.sr (.inl (by rcases hu with hu | hu <;> rw [hu] <;> rfl))
  have hsdo : b.sdo = b.pattern.getLsbD (7 - k) := by
    have hbits : ((xs.map Sample.level).drop b.tret.samplesBefore).length = k := by simp [hlen]
    rw [h.latched.resolve_left (by simp [hlow]), hsr, getLsbD_shiftAll _ (by omega), hbits]
  have hset : b.transferSetUp = true := by
    have hs := h.shaped.shape
    rcases hu with hu | hu <;> simp_all [Block.shape]
  rw [hlen, b.getElem?_drivenBits hk]
  have hidle : Config.idleHigh.getLsbD (7 - k) = true := by
    have hbit : ∀ j : Fin 8, Config.idleHigh.getLsbD j = true := by decide
    exact hbit ⟨7 - k, by omega⟩
  cases hr : b.tret <;> simp_all [Block.transferSetUp, RetLabel.drivesData, RetLabel.opcode, RetLabel.ofByte,
    Block.mSda, Block.pattern, Block.byteSent, Block.answerSent]

end Sys2Proof.Machine
end

section
/-! SUPPORT. How each step of a byte command carries the samples on (R81, R84, R97). -/

namespace Sys2Proof.Machine

/-- The sample that a rising edge takes now (R84). -/
def Block.sample (e : Env) (b : Block) : Sample := ⟨b.mSda, e.sda, b.sdaLine e⟩

/-- A step that takes a sample, at T2 or T3, shifts its level in (R83, R97). -/
theorem Block.Sampled.take {e e' : Env} {xs : List Sample} {b c : Block} (hx : b.Sampled e xs) (h : b.ByteRun e)
    (hu : b.upc = .transfer .t2 ∨ b.upc = .transfer .t3) (hlow : b.sclLine e = false)
    (hc : c.upc = .transfer .t3) (hframe : c.op = b.op ∧ c.arg = b.arg ∧ c.tret = b.tret ∧ c.rxb = b.rxb)
    (hsr : c.sr = shiftIn b.sr (b.sdaLine e)) (htaken : c.samplesTaken e' = b.samplesTaken e + 1) :
    c.Sampled e' (xs ++ [b.sample e]) := by
  obtain ⟨hop, harg, htret, hrxb⟩ := hframe
  obtain ⟨k, hk, hlt⟩ := h.samplesTaken_lt hu hlow
  have hlen : xs.length = b.tret.samplesBefore + k := hx.taken.trans hk
  have hpattern : c.pattern = b.pattern := by
    simp only [Block.pattern, Block.byteSent, Block.answerSent, htret, hop, harg]
  refine ⟨?_, ?_, ?_, fun _ => ?_, by simp [Block.Captured, hc], fun hsaved => ?_, by simp [hc]⟩
  · rw [List.length_append, hx.taken, htaken]
    rfl
  · have hbits : c.drivenBits = b.drivenBits := by
      simp only [Block.drivenBits, Block.byteSent, Block.answerSent, hop, harg]
    rw [hbits, List.length_append, List.length_singleton, List.take_add_one, hx.mSda h hu hlow, ← hx.driven]
    simp [Block.sample]
  · exact List.forall_mem_append.mpr ⟨hx.level, List.forall_mem_singleton.mpr rfl⟩
  · have hold := hx.sr (.inl (by rcases hu with hu | hu <;> rw [hu] <;> rfl))
    rw [hsr, hpattern, htret, List.map_append, List.drop_append_of_le_length (by simp [hlen]), hold]
    exact (shiftAll_append_singleton _ _ _).symm
  · have hbyte : b.holdsByte = true := by
      rcases hu with hu | hu <;> simpa [Block.holdsByte, hc, hu, hop, htret] using hsaved
    have hcount : 8 ≤ xs.length := by
      have hr : b.tret.ofByte = false := by
        rcases hu with hu | hu <;> simp_all [Block.holdsByte]
      simp [hlen, RetLabel.samplesBefore, hr]
    rw [hrxb, List.map_append, List.take_append_of_le_length (by simpa using hcount)]
    exact hx.saved hbyte

/-- What a micro-step without a sample leaves in `SR` for the transfer (R14, R95). -/
theorem Block.Sampled.writes_sr {e : Env} {xs : List Sample} {b : Block} {m : MicroStep} (hx : b.Sampled e xs)
    (h : b.ByteRun e) (hm : microcode b.upc = some m) :
    (m.writes b).upc.shifting = true ∨ (m.writes b).upc = .transfer .t0 →
      (m.writes b).sr =
        shiftAll (m.writes b).pattern ((xs.map Sample.level).drop (m.writes b).tret.samplesBefore) := by
  have hs := h.shaped.shape
  have hold := hx.sr
  have htaken := hx.taken
  refine h.micro_cases (P := fun m => (m.writes b).upc.shifting = true ∨ (m.writes b).upc = .transfer .t0 →
      (m.writes b).sr =
        shiftAll (m.writes b).pattern ((xs.map Sample.level).drop (m.writes b).tret.samplesBefore))
    (fun l ho hl => ?_) (fun l ho hl => ?_) (fun l ho hl => ?_) (fun l hl => ?_) hm
  · cases l <;> simp_all [writeProgram, Label.shifting, Block.samplesTaken, Block.shape, Block.pattern,
      Block.byteSent, Block.answerSent, RetLabel.samplesBefore, RetLabel.ofByte, List.drop_eq_nil_of_le]
  · cases l <;> simp_all [readAckProgram, Label.shifting, Block.samplesTaken, Block.shape, Block.pattern,
      Block.byteSent, Block.answerSent, RetLabel.samplesBefore, RetLabel.ofByte, List.drop_eq_nil_of_le]
  · cases l <;> simp_all [readNackProgram, Label.shifting, Block.samplesTaken, Block.shape, Block.pattern,
      Block.byteSent, Block.answerSent, RetLabel.samplesBefore, RetLabel.ofByte, List.drop_eq_nil_of_le]
  · cases l with
    | t10 => cases hr : b.tret <;> simp [transferProgram, Label.shifting, hr, RetLabel.toLabel]
    | _ => simp_all [transferProgram, Label.shifting, Block.pattern, Block.byteSent, Block.answerSent]

/-- What a micro-step without a sample leaves in `CAP` (R27, R95). -/
theorem Block.Sampled.writes_captured {e : Env} {xs : List Sample} {b : Block} {m : MicroStep}
    (hx : b.Sampled e xs) (h : b.ByteRun e) (hm : microcode b.upc = some m) :
    (m.writes b).Captured (xs.map Sample.level) := by
  have hold := hx.captured
  simp only [Block.Captured] at hold
  refine h.micro_cases (P := fun m => (m.writes b).Captured (xs.map Sample.level))
    (fun l ho hl => ?_) (fun l ho hl => ?_) (fun l ho hl => ?_) (fun l hl => ?_) hm
  · cases l <;> simp_all [writeProgram, Block.Captured]
  · cases l <;> simp_all [readAckProgram, Block.Captured]
  · cases l <;> simp_all [readNackProgram, Block.Captured]
  · cases l with
    | t6 => cases ho : b.fOvf <;> simp [transferProgram, Block.Captured, ho]
    | t8 =>
      have hsr := hx.sr (.inl (by rw [hl]; rfl))
      simpa [transferProgram, Block.Captured, Block.pattern, Block.byteSent, Block.answerSent] using hsr
    | t9 => simpa [hl, transferProgram, Block.Captured, Block.pattern, Block.byteSent, Block.answerSent] using hold
    | t10 =>
      have hs := h.shaped.shape
      have htaken := hx.taken
      have hbyte := shiftAll_of_length (v := b.pattern) (bits := xs.map Sample.level)
      cases hr : b.tret <;> simp_all [transferProgram, Block.Captured, RetLabel.toLabel, Block.shape,
        Block.transferSetUp, RetLabel.opcode, RetLabel.ofByte, RetLabel.samplesBefore, Block.samplesTaken,
        Block.edges, pulsesOf, Block.pattern, Block.answerSent]
    | _ => simp [transferProgram, Block.Captured]

/-- What a micro-step without a sample leaves in `RXB` (R27, R121, R122). -/
theorem Block.Sampled.writes_saved {e : Env} {xs : List Sample} {b : Block} {m : MicroStep}
    (hx : b.Sampled e xs) (h : b.ByteRun e) (hm : microcode b.upc = some m) :
    (m.writes b).holdsByte = true → (m.writes b).rxb = packByte ((xs.map Sample.level).take 8) := by
  have hcap := hx.captured
  have hold := hx.saved
  have htaken := hx.taken
  simp only [Block.Captured] at hcap
  simp only [Block.holdsByte] at hold
  refine h.micro_cases (P := fun m => (m.writes b).holdsByte = true →
      (m.writes b).rxb = packByte ((xs.map Sample.level).take 8))
    (fun l ho hl => ?_) (fun l ho hl => ?_) (fun l ho hl => ?_) (fun l hl => ?_) hm
  · cases l <;> simp [writeProgram, Block.holdsByte, ho]
  · cases l <;> simp_all [readAckProgram, Block.holdsByte, RetLabel.ofByte, Block.samplesTaken, List.take_of_length_le]
  · cases l <;> simp_all [readNackProgram, Block.holdsByte, RetLabel.ofByte, Block.samplesTaken,
      List.take_of_length_le]
  · cases l with
    | t6 => cases ho : b.fOvf <;> simp_all [transferProgram, Block.holdsByte]
    | t10 =>
      have hs := h.shaped.shape
      cases hr : b.tret <;> simp_all [transferProgram, Block.holdsByte, RetLabel.toLabel, Block.shape,
        Block.transferSetUp, RetLabel.opcode, RetLabel.ofByte]
    | _ => simp_all [transferProgram, Block.holdsByte]

/-- FIN answers with the acknowledge bit of a WRITE, the byte of a READ (R65, R92). -/
theorem Block.ByteRun.writes_answered {e : Env} {b : Block} {m : MicroStep} (h : b.ByteRun e)
    (hm : microcode b.upc = some m) : (m.writes b).upc = .idle →
      ((m.writes b).rspAck, (m.writes b).rspData) =
        (m.writes b).resultOf (if (m.writes b).op = 3#3 then .acknowledge else .received) := by
  refine h.micro_cases (P := fun m => (m.writes b).upc = .idle → ((m.writes b).rspAck, (m.writes b).rspData) =
      (m.writes b).resultOf (if (m.writes b).op = 3#3 then .acknowledge else .received))
    (fun l ho hl => ?_) (fun l ho hl => ?_) (fun l ho hl => ?_) (fun l hl => ?_) hm
  · cases l <;> simp [writeProgram, ho, Block.resultOf, Block.acknowledged]
  · cases l <;> simp [readAckProgram, ho, Block.resultOf]
  · cases l <;> simp [readNackProgram, ho, Block.resultOf]
  · cases l with
    | t6 => cases ho : b.fOvf <;> simp [transferProgram, ho]
    | t10 =>
      have hs := h.shaped.shape
      cases hr : b.tret <;> simp_all [transferProgram, RetLabel.toLabel, Block.shape, Block.transferSetUp,
        RetLabel.opcode]
    | _ => simp [transferProgram]

/-- Phase 1 of a micro-step that takes no sample carries the samples on. -/
theorem Block.Sampled.writes {e : Env} {xs : List Sample} {b : Block} {m : MicroStep} (hx : b.Sampled e xs)
    (h : b.ByteRun e) (hm : microcode b.upc = some m) (hw : m.op = .waitScl → b.sclLine e = true)
    (hno : ¬(b.upc = .transfer .t2 ∧ e.scl = true)) : (m.writes b).Sampled e xs := by
  have hc := MicroStep.writes_writtenFrom hm
  refine ⟨?_, ?_, hx.level, hx.writes_sr h hm, hx.writes_captured h hm, hx.writes_saved h hm,
    h.writes_answered hm⟩
  · rw [h.writes_samplesTaken hm hw, if_neg hno]
    exact hx.taken
  · simpa only [Block.drivenBits, Block.byteSent, Block.answerSent, hc.op, hc.arg] using hx.driven

end Sys2Proof.Machine
end

section
/-! SUPPORT. The samples of a whole byte command on a bus that meets ENV1 (R46, R97). -/

namespace Sys2Proof.Machine

/-- The sample of a step: one where the clock line rises with `XFER = 1` (R84). -/
def sampleAt (s : State) (e : Event) : List Sample :=
  if !s.sclLine && e.after.sclLine && e.after.blk.xfer then [s.blk.sample s.env] else []

theorem risingSamples_eq_observed (s : State) (es : List Event) : risingSamples s es = observed sampleAt s es := by
  induction es generalizing s with
  | nil => rfl
  | cons e es ih =>
    simp only [risingSamples, observed, sampleAt, ih]
    split <;> rfl

theorem sampleAt_rise {s : State} {e : Event} (hlow : s.sclLine = false) (hhigh : e.after.sclLine = true)
    (hx : e.after.blk.xfer = true) : sampleAt s e = [s.blk.sample s.env] := by
  simp [sampleAt, hlow, hhigh, hx]

theorem sampleAt_eq_nil {s : State} {e : Event}
    (h : ¬(s.sclLine = false ∧ e.after.sclLine = true ∧ e.after.blk.xfer = true)) : sampleAt s e = [] := by
  simpa [sampleAt] using h

/-- A line update that sees no rising edge with `XFER = 1` leaves `SR` (R84). -/
theorem Block.lineUpdate_sr_of_no_rise {e : Env} {scl0 sda0 : Level} {b : Block}
    (h : ¬(scl0 = false ∧ b.sclLine e = true ∧ b.xfer = true)) : (b.lineUpdate e scl0 sda0).sr = b.sr := by
  by_contra hne
  obtain ⟨hlow, hhigh, hx, -⟩ := Block.lineUpdate_sr_ne hne
  exact h ⟨hlow, hhigh, hx⟩

theorem Block.ByteRun.phases {e : Env} {b b' : Block} (h : b.ByteRun e) (hs : b.seqStep e = some b') :
    ∃ m, microcode b.upc = some m ∧ (m.op = .waitScl → b.sclLine e = true) ∧
      b' = (m.writes b).lineUpdate e (b.sclLine e) (b.sdaLine e) := by
  obtain ⟨m, hm, hw, -⟩ := Block.seqStep_phases hs
  obtain ⟨m', hm', hb'⟩ := h.latched.seqStep hs h.upc_ne_i0
  obtain rfl := Option.some.inj (hm.symm.trans hm')
  exact ⟨m, hm, hw, hb'⟩

/-- At T2 the block alone holds the clock line low (R95). -/
theorem Block.ByteRun.low_at_t2 {e : Env} {b : Block} (h : b.ByteRun e) (hu : b.upc = .transfer .t2) :
    b.sclLine e = false := by
  have hk := h.kept
  simp only [Block.ClockKept, hu] at hk
  simp [h.sclLine, hk]

/-- Where the block of a byte command lets the clock go: at rest, at W0, and from T3 to T5 (R97, R120). -/
theorem Block.ByteRun.upc_of_outScl {e : Env} {b : Block} (h : b.ByteRun e) (ho : b.outScl = true) :
    b.upc = .idle ∨ b.upc = .write .w0 ∨ b.upc = .transfer .t3 ∨ b.upc = .transfer .t4 ∨
      b.upc = .transfer .t5 := by
  have hs := h.shaped.shape
  have hk := h.kept
  rcases h.upc_cases with hu | ⟨-, l, hu⟩ | ⟨-, l, hu⟩ | ⟨-, l, hu⟩ | ⟨l, hu⟩
  · exact .inl hu
  · cases l <;> simp_all [Block.shape]
  · cases l <;> simp_all [Block.shape, Block.ClockKept]
  · cases l <;> simp_all [Block.shape, Block.ClockKept]
  · cases l <;> simp_all [Block.shape, Block.ClockKept]

/-- From T3 to T5 the environment makes a rising edge only while T3 waits for it (R90, R97). -/
theorem Block.ByteRun.upc_of_env_rise {e e' : Env} {b : Block} (h : b.ByteRun e) (hlow : b.sclLine e = false)
    (hhigh : b.sclLine e' = true) (hidle : b.upc ≠ .idle) (hw0 : b.upc ≠ .write .w0) : b.upc = .transfer .t3 := by
  have ho : b.outScl = true := (Block.sclLine_eq_true.mp hhigh).1 h.shaped.dirScl
  rcases h.upc_of_outScl ho with hu | hu | hu | hu
  · exact absurd hu hidle
  · exact absurd hu hw0
  · exact hu
  · exact absurd (hlow.symm.trans (h.sclLine_high hu)) (by decide)

/-- The rising edge that T3 waits for is one more sample (R97). -/
theorem Block.ByteRun.samplesTaken_t3 {e e' : Env} {b : Block} (h : b.ByteRun e) (hu : b.upc = .transfer .t3)
    (hlow : b.sclLine e = false) (hhigh : b.sclLine e' = true) : b.samplesTaken e' = b.samplesTaken e + 1 := by
  have hs := h.shaped.shape
  have hc := pulsesOf_odd (c := b.cnt) (o := b.tret.ofByte)
  simp_all [Block.samplesTaken, Block.edges, Block.shape, Block.counting, Nat.add_assoc]

/-- The strobe at T2 takes a sample where the clock line follows it (R83, R97). -/
theorem Block.Sampled.seqStep_rise {e : Env} {xs : List Sample} {b b' : Block} (hx : b.Sampled e xs)
    (h : b.ByteRun e) (hs : b.seqStep e = some b') (hu : b.upc = .transfer .t2) (he : e.scl = true) :
    b'.sclLine e = true ∧ b'.xfer = true ∧ b'.Sampled e (xs ++ [b.sample e]) := by
  have ho : b.outScl = false := by simpa [Block.ClockKept, hu] using h.kept
  have hsr : b'.sr = shiftIn b.sr (b.sdaLine e) := h.shaped.seqStep_t2 h.latched hs hu he ho
  obtain ⟨m, hm, hw, hb'⟩ := h.phases hs
  have htaken := h.writes_samplesTaken hm hw
  rw [if_pos ⟨hu, he⟩] at htaken
  obtain rfl : transferProgram .t2 = m := by simpa [hu, microcode] using hm
  have hagree := Block.lineUpdate_agrees e (b.sclLine e) (b.sdaLine e) ((transferProgram .t2).writes b)
  have hline : b'.sclLine e = ((transferProgram .t2).writes b).sclLine e := by
    rw [hb', Block.lineUpdate_sclLine]
  rw [← hb'] at hagree
  refine ⟨?_, ?_, hx.take h (.inl hu) (h.low_at_t2 hu) hagree.upc
    ⟨hagree.op, hagree.arg, hagree.tret, hagree.rxb⟩ hsr ((hagree.samplesTaken fun _ => hline).trans htaken)⟩
  · rw [hline]
    simp [Block.sclLine, Block.mScl, transferProgram, ho, he]
  · exact hagree.xfer.trans (h.shaped.xfer.trans (by rw [hu]; rfl))

/-- Every other micro-step makes no rising edge with `XFER = 1`, and carries the samples on (R97). -/
theorem Block.Sampled.seqStep_of_no_rise {e : Env} {xs : List Sample} {b b' : Block} (hx : b.Sampled e xs)
    (h : b.ByteRun e) (hs : b.seqStep e = some b') (ht : ¬(b.upc = .transfer .t2 ∧ e.scl = true)) :
    ¬(b.sclLine e = false ∧ b'.sclLine e = true ∧ b'.xfer = true) ∧ b'.Sampled e xs := by
  obtain ⟨m, hm, hw, rfl⟩ := h.phases hs
  have hno : ¬(b.sclLine e = false ∧ (m.writes b).sclLine e = true ∧ (m.writes b).xfer = true) :=
    fun ⟨hlow, hhigh, hxf⟩ =>
      ht ⟨h.shaped.writes_rise hm h.upc_ne_i0 hlow hhigh hxf, (Block.sclLine_eq_true.mp hhigh).2⟩
  refine ⟨?_, (hx.writes h hm hw ht).congr (Block.lineUpdate_agrees _ _ _ _)
    (Block.lineUpdate_sr_of_no_rise hno) fun _ => Block.lineUpdate_sclLine _ _ _ _⟩
  simpa only [Block.lineUpdate_sclLine, Block.lineUpdate_frame] using hno

/-- A line update after the environment's step takes a sample where the clock line rises with `XFER = 1`: T3 waits for
it (R84, R97). -/
theorem Block.Sampled.lineUpdate_rise {e e' : Env} {xs : List Sample} {b : Block} (hx : b.Sampled e xs)
    (h : b.ByteRun e) (hlow : b.sclLine e = false) (hhigh : b.sclLine e' = true) (hxf : b.xfer = true) :
    (b.lineUpdate e' (b.sclLine e) (b.sdaLine e)).Sampled e' (xs ++ [b.sample e]) := by
  have hshift : b.upc.shifting = true := h.shaped.xfer.symm.trans hxf
  have hu := h.upc_of_env_rise hlow hhigh (fun hi => by simp [hi, Label.shifting] at hshift)
    fun hi => by simp [hi, Label.shifting] at hshift
  have hagree := Block.lineUpdate_agrees e' (b.sclLine e) (b.sdaLine e) b
  have hline : (b.lineUpdate e' (b.sclLine e) (b.sdaLine e)).sclLine e' = b.sclLine e' :=
    Block.lineUpdate_sclLine _ _ _ _
  refine hx.take h (.inr hu) hlow (hagree.upc.trans hu) ⟨hagree.op, hagree.arg, hagree.tret, hagree.rxb⟩ ?_
    ((hagree.samplesTaken fun _ => hline).trans (h.samplesTaken_t3 hu hlow hhigh))
  rw [Block.lineUpdate_sr, Block.twm_of_control h.shaped.control, hlow, hhigh, hxf]
  rfl

/-- `t` is a state of a byte command on a bus that meets ENV1, and `xs` are the samples taken so far. -/
structure State.Sampling (xs : List Sample) (t : State) : Prop where
  run : t.blk.ByteRun t.env
  sampled : t.blk.Sampled t.env xs

theorem State.Sampling.seqStep {xs : List Sample} {t u : State} (h : t.Sampling xs) (hu : t.seqStep = some u) :
    u.Sampling (xs ++ sampleAt t ⟨some t.blk.upc, u⟩) := by
  obtain ⟨-, b, hb, rfl⟩ := State.seqStep_some hu
  refine ⟨h.run.seqStep hb, ?_⟩
  by_cases ht : t.blk.upc = .transfer .t2 ∧ t.env.scl = true
  · obtain ⟨hhigh, hx, hsampled⟩ := h.sampled.seqStep_rise h.run hb ht.1 ht.2
    have hone : sampleAt t ⟨some t.blk.upc, { t with blk := b }⟩ = [t.blk.sample t.env] :=
      sampleAt_rise (h.run.low_at_t2 ht.1) hhigh hx
    rwa [hone]
  · obtain ⟨hno, hsampled⟩ := h.sampled.seqStep_of_no_rise h.run hb ht
    have hnone : sampleAt t ⟨some t.blk.upc, { t with blk := b }⟩ = [] := sampleAt_eq_nil hno
    rwa [hnone, List.append_nil]

theorem State.Sampling.envStep {xs : List Sample} {t : State} {l : Line} (h : t.Sampling xs)
    (hp : Move.env1 t (.environment l) = true) :
    (t.envStep l).Sampling (xs ++ sampleAt t ⟨none, t.envStep l⟩) := by
  refine ⟨h.run.envStep hp, ?_⟩
  have hagree := Block.lineUpdate_agrees (t.env.flip l) t.sclLine t.sdaLine t.blk
  have hline : (t.envStep l).sclLine = t.blk.sclLine (t.env.flip l) := Block.lineUpdate_sclLine _ _ _ _
  by_cases hr : t.sclLine = false ∧ t.blk.sclLine (t.env.flip l) = true ∧ t.blk.xfer = true
  · obtain ⟨hlow, hhigh, hx⟩ := hr
    rw [sampleAt_rise hlow (hline.trans hhigh) (hagree.xfer.trans hx)]
    exact h.sampled.lineUpdate_rise h.run hlow hhigh hx
  · have hnone : sampleAt t ⟨none, t.envStep l⟩ = [] := sampleAt_eq_nil (by
      simpa only [hline, State.envStep_parts, Block.lineUpdate_frame] using hr)
    rw [hnone, List.append_nil]
    refine h.sampled.congr hagree (Block.lineUpdate_sr_of_no_rise hr) fun hu => hline.trans ?_
    have hx : t.blk.xfer = true := h.run.shaped.xfer.trans (by rw [hu]; rfl)
    cases hs : t.blk.sclLine t.env with
    | true =>
      rw [h.run.sclLine, State.env1_scl hp hs, ← h.run.sclLine, hs]
    | false =>
      by_contra hhigh
      exact hr ⟨hs, by simpa using hhigh, hx⟩

/-- The samples of a byte command, from its acceptance to the end of its run. -/
theorem State.Sampling.busRun {s t : State} {es : List Event} (hs : s.Sampling [])
    (h : BusRun Move.env1 s es t) : t.Sampling (risingSamples s es) := by
  rw [risingSamples_eq_observed]
  exact h.accumulates (J := State.Sampling) (fun _ _ _ => rfl) (fun _ _ _ h => ⟨h.run, h.sampled⟩)
    (fun s => sampleAt_eq_nil fun ⟨hlow, hhigh, _⟩ => absurd (hlow.symm.trans hhigh) (by decide))
    (fun _ _ _ h hu => h.seqStep hu) (fun _ _ _ h _ hp => h.envStep hp) hs

end Sys2Proof.Machine
end

section
/-! SUPPORT. The ends of the byte commands: what a completed WRITE and READ have sampled, and answer (R97, R99, R120 to
R122). -/

namespace Sys2Proof.Machine

/-- The induction over a run of what every step keeps. -/
theorem State.BusRun.keeps {p : State → Move → Bool} {P : State → Prop}
    (hagenda : ∀ s a, P s → P { s with agenda := a }) (hmicro : ∀ s u, P s → s.seqStep = some u → P u)
    (henv : ∀ s l, P s → P (s.envStep l)) {s t : State} {es : List Event} (h : BusRun p s es t) (hs : P s) : P t :=
  h.accumulates (α := Unit) (f := fun _ _ => []) (J := fun _ t => P t) (fun _ _ _ => rfl) (fun _ => hagenda)
    (fun _ => rfl) (fun _ => hmicro) (fun _ s l hs _ _ => henv s l hs) (xs := []) hs

/-- The command latch stays as acceptance left it (R25, R62). -/
theorem State.BusRun.command {p : State → Move → Bool} {s t : State} {es : List Event} (h : BusRun p s es t) :
    t.blk.op = s.blk.op ∧ t.blk.arg = s.blk.arg := by
  refine h.keeps (P := fun t => t.blk.op = s.blk.op ∧ t.blk.arg = s.blk.arg) (fun _ _ h => h)
    (fun t u h hu => ?_) (fun t l h => by simpa using h) ⟨rfl, rfl⟩
  obtain ⟨-, b, hb, rfl⟩ := State.seqStep_some hu
  obtain ⟨m, hm, ha⟩ := Block.seqStep_agrees hb
  have hc := MicroStep.writes_writtenFrom hm
  exact ⟨(ha.op.trans hc.op).trans h.1, (ha.arg.trans hc.arg).trans h.2⟩

/-! ## A READ entered with the clock released -/

/-- The way of a READ issued with the clock released, up to the T3 it never leaves (R98, R157). -/
def Block.Doomed (b : Block) : Prop :=
  match b.upc with
  | .readAck .a0 | .readAck .a1 | .readNack .n0 | .readNack .n1
  | .transfer .t0 | .transfer .t1 | .transfer .t2 => b.outScl = true
  | .transfer .t3 => b.outScl = false
  | _ => False

theorem Block.AgreesButLines.doomed {b c : Block} (h : b.AgreesButLines c) : c.Doomed ↔ b.Doomed := by
  simp only [Block.Doomed, h.upc, h.outScl]

/-- T2 pulls the clock low, and T3 waits for the block itself (R98). -/
theorem Block.Doomed.seqStep {e : Env} {b b' : Block} (h : b.Doomed) (hd : b.dirScl = true)
    (hs : b.seqStep e = some b') : b'.Doomed ∧ b'.dirScl = true ∧ b'.busy = true := by
  obtain ⟨hbusy, -⟩ := Block.seqStep_some hs
  obtain ⟨m, hm, hw, -⟩ := Block.seqStep_phases hs
  obtain ⟨m', hm', ha⟩ := Block.seqStep_agrees hs
  obtain rfl := Option.some.inj (hm.symm.trans hm')
  rw [ha.doomed, ha.dirScl, ha.busy]
  rw [Block.sclLine_eq_true] at hw
  simp only [Block.Doomed] at h
  generalize hu : b.upc = l at hm
  cases l, m, hm using microcode_cases with
  | init l => cases l <;> simp [hu] at h
  | start l => cases l <;> simp [hu] at h
  | stop l => cases l <;> simp [hu] at h
  | write l => cases l <;> simp [hu] at h
  | readAck l => cases l <;> simp_all [Block.Doomed, readAckProgram]
  | readNack l => cases l <;> simp_all [Block.Doomed, readNackProgram]
  | transfer l => cases l <;> simp_all [Block.Doomed, transferProgram]

/-- A READ issued with the clock released does not complete (R157). -/
theorem State.BusRun.busy_of_doomed {p : State → Move → Bool} {s t : State} {es : List Event}
    (h : BusRun p s es t) (hs : s.blk.Doomed) (hd : s.blk.dirScl = true) (hb : s.blk.busy = true) :
    t.blk.busy = true := by
  refine (h.keeps (P := fun t => t.blk.Doomed ∧ t.blk.dirScl = true ∧ t.blk.busy = true) (fun _ _ h => h)
    (fun t u h hu => ?_) (fun t l h => ?_) ⟨hs, hd, hb⟩).2.2
  · obtain ⟨-, b, hbs, rfl⟩ := State.seqStep_some hu
    exact h.1.seqStep h.2.1 hbs
  · exact ⟨(Block.lineUpdate_agrees _ _ _ _).doomed.mpr h.1, by simpa using h.2⟩

/-! ## The start and the end of the samples -/

/-- Acceptance of a byte command, of a READ with the clock held low, begins with no samples (R62). -/
theorem State.sampling_accepted {i : Instr} {s : State} (h : s.inv = true) (hr : s.ready = true)
    (hc : s.blk.control = Config.controlWord) (hi : i.opcode = 3#3 ∨ i.opcode = 4#3 ∨ i.opcode = 5#3)
    (hread : i.opcode = 4#3 ∨ i.opcode = 5#3 → s.blk.outScl = false) : (s.accepted i).Sampling [] := by
  have hinv := (State.inv_iff.mp (State.inv_accepted (i := i) h hr (.inr hc))).1
  obtain ⟨hsh, hl⟩ := Block.shaped_of_control hinv hc
  have hkept := (State.completing_accepted h hr (.inr hc) hread).kept
  cases i with
  | init d => simp [Instr.opcode] at hi
  | start d => simp [Instr.opcode] at hi
  | stop d => simp [Instr.opcode] at hi
  | write d =>
    exact ⟨⟨hsh, hl, hi, hkept, by simp [firstLabel]⟩, ⟨rfl, rfl, nofun, nofun, trivial, nofun, nofun⟩⟩
  | readAck d =>
    exact ⟨⟨hsh, hl, hi, hkept, by simp [firstLabel]⟩, ⟨rfl, rfl, nofun, nofun, trivial, nofun, nofun⟩⟩
  | readNack d =>
    exact ⟨⟨hsh, hl, hi, hkept, by simp [firstLabel]⟩, ⟨rfl, rfl, nofun, nofun, trivial, nofun, nofun⟩⟩

/-- The samples of a completed byte command: nine, the bits driven, and what `CAP`, `RXB` and the response hold of
them (R65, R97). -/
structure Block.EndsWith (b : Block) (xs : List Sample) (ack : Sample) : Prop where
  length : xs.length = 8
  driven : xs.map Sample.driven = bitsOf b.byteSent
  answer : ack.driven = b.answerSent.getLsbD 7
  level : ∀ x ∈ xs ++ [ack], x.level = (x.driven && x.env)
  cap : b.op = 3#3 → b.cap = shiftIn Config.idleHigh ack.level
  rxb : b.op ≠ 3#3 → b.rxb = packByte (xs.map Sample.level)
  response : (b.rspAck, b.rspData) = b.resultOf (if b.op = 3#3 then .acknowledge else .received)

theorem State.Sampling.endsWith {zs : List Sample} {t : State} (h : t.Sampling zs) (hb : t.blk.busy = false) :
    ∃ xs ack, zs = xs ++ [ack] ∧ t.blk.EndsWith xs ack := by
  have hu : t.blk.upc = .idle := by simpa [hb] using h.run.shaped.busy
  have hlen : zs.length = 9 := h.sampled.taken.trans (by simp [Block.samplesTaken, hu])
  obtain ⟨xs, ack, rfl⟩ : ∃ xs ack, zs = xs ++ [ack] := by
    refine ⟨zs.dropLast, zs.getLast (by rintro rfl; simp at hlen), (List.dropLast_append_getLast _).symm⟩
  have hxs : xs.length = 8 := by simpa using hlen
  have hdriven := h.sampled.driven
  rw [hlen, List.take_of_length_le (by simp [Block.drivenBits, bitsOf]), Block.drivenBits, List.map_append] at hdriven
  obtain ⟨hbits, hack⟩ := List.append_inj' hdriven rfl
  have hcap := h.sampled.captured
  have hrxb := h.sampled.saved
  simp only [Block.Captured, hu, Block.holdsByte, List.map_append] at hcap hrxb
  rw [List.drop_append_of_le_length (by simp [hxs]), List.drop_eq_nil_of_le (by simp [hxs])] at hcap
  rw [List.take_append_of_le_length (by simp [hxs]), List.take_of_length_le (by simp [hxs])] at hrxb
  exact ⟨xs, ack, rfl, hxs, hbits, by simpa using hack, h.sampled.level, hcap, by simpa using hrxb,
    h.sampled.answered hu⟩

/-- A byte command that completes on a bus that meets ENV1, with its nine samples. A READ that completes was issued
with the clock held low (R157). -/
theorem exec_byte_samples {i : Instr} {s t : State} (hi : i.opcode = 3#3 ∨ i.opcode = 4#3 ∨ i.opcode = 5#3)
    (h : s.inv = true) (hr : s.ready = true) (hc : s.blk.control = Config.controlWord) (hno : s.noReset = true)
    (henv1 : (s.accepted i).env1 = true) (he : exec i s = .next t) (hdone : t.completed = true) :
    (s.accepted i).Sampling [] ∧ State.BusRun Move.env1 (s.accepted i) (s.accepted i).trail t ∧
      t.blk.op = i.opcode ∧ t.blk.arg = i.operand ∧
      ∃ xs ack, risingSamples (s.accepted i) (s.accepted i).trail = xs ++ [ack] ∧ t.blk.EndsWith xs ack := by
  obtain rfl := Host.Outcome.next.inj ((exec_of_ready hr (.inr hc)).symm.trans he)
  have hb : (s.accepted i).run.blk.busy = false := by
    simp only [State.completed, Bool.and_eq_true, Bool.not_eq_true'] at hdone
    exact hdone.1
  have hbus : State.BusRun Move.env1 (s.accepted i) (s.accepted i).trail (s.accepted i).run :=
    State.busRun_trail (State.ready_iff.mp hr).1 hno henv1
  have hread : i.opcode = 4#3 ∨ i.opcode = 5#3 → s.blk.outScl = false := by
    intro hio
    by_contra ho
    have hd : (s.accepted i).blk.Doomed := by cases i <;> simp_all [Instr.opcode, Block.Doomed, firstLabel]
    have hdir := (Block.shaped_of_control (State.inv_iff.mp h).1 hc).1.dirScl
    exact absurd ((hbus.busy_of_doomed hd hdir rfl).symm.trans hb) (by decide)
  have hstart := State.sampling_accepted h hr hc hi hread
  obtain ⟨hop, harg⟩ := hbus.command
  obtain ⟨xs, ack, hzs, hend⟩ := (hstart.busRun hbus).endsWith hb
  exact ⟨hstart, hbus, hop, harg, xs, ack, hzs, hend⟩

/-- Settles O44: the samples of the run, and the acknowledge bit that FIN reads off `CAP`. -/
theorem writeSendsItsBitsAndReturnsTheAcknowledge : Obligations.WriteSendsItsBitsAndReturnsTheAcknowledge := by
  intro d s t h hr hc hno henv1 he hdone
  obtain ⟨-, -, hop, harg, xs, ack, hzs, hend⟩ :=
    exec_byte_samples (i := .write d) (.inl rfl) h hr hc hno henv1 he hdone
  have ho : t.blk.op = 3#3 := hop
  have ha : t.blk.arg = d := harg
  have hdriven : xs.map Sample.driven = bitsOf d := by simpa [Block.byteSent, ho, ha] using hend.driven
  have hanswer : ack.driven = true := hend.answer.trans (by simp [Block.answerSent, ho, Config.idleHigh])
  have hcap := hend.cap ho
  have hbit : t.blk.cap.getLsbD 0 = ack.level := by
    rw [hcap, getLsbD_shiftIn _ _ (by decide)]
    rfl
  have hresponse : t.blk.rspAck = (!ack.level) ∧ t.blk.rspData = 0x00#8 := by
    have hr := hend.response
    rw [if_pos ho, Block.resultOf, Block.acknowledged, hbit] at hr
    exact Prod.mk.inj hr
  exact ⟨xs, ack, hzs, hdriven, hanswer, hend.level, hresponse.1, hresponse.2, hcap⟩

/-- Settles O45: the samples of the run, eight of them saved in `RXB` before the answer is sent. -/
theorem readsReturnTheSampledByteAndAnswer : Obligations.ReadsReturnTheSampledByteAndAnswer := by
  intro i d s t hi h hr hc hno henv1 he hdone
  have hio : i.opcode = 4#3 ∨ i.opcode = 5#3 := by
    rcases hi with rfl | rfl
    · exact .inl rfl
    · exact .inr rfl
  obtain ⟨-, -, hop, -, xs, ack, hzs, hend⟩ :=
    exec_byte_samples (.inr hio) h hr hc hno henv1 he hdone
  have ho : t.blk.op ≠ 3#3 := by rw [hop]; rcases hio with h | h <;> simp [h]
  have hdriven : ∀ x ∈ xs, x.driven = true := by
    have hbits : xs.map Sample.driven = List.replicate 8 true := by
      rw [hend.driven, Block.byteSent, if_neg ho]
      decide
    intro x hx
    exact List.eq_of_mem_replicate (hbits ▸ List.mem_map_of_mem hx)
  have hanswer : ack.driven = (i == .readNack d) := by
    rw [hend.answer, Block.answerSent, hop]
    rcases hi with rfl | rfl <;> simp [Instr.opcode, Config.allZero, Config.idleHigh]
  have hresponse : t.blk.rspAck = false ∧ t.blk.rspData = t.blk.rxb := by
    have hr := hend.response
    rw [if_neg ho] at hr
    exact Prod.mk.inj hr
  exact ⟨xs, ack, hzs, hend.length, hdriven, hend.level, hanswer, hend.rxb ho, hresponse.2, hresponse.1⟩

end Sys2Proof.Machine
end

section
/-! SUPPORT. The block and a conforming slave: every rising edge of a byte command is a sample, and so takes the
slave's next bit (R46, R47, R97). -/

namespace Sys2Proof.Machine

/-- The block is in a byte command on a bus that meets ENV1, and finds the clock line high at W0 if it has let it go. -/
structure Block.PulsesOnly (e : Env) (b : Block) : Prop where
  run : b.ByteRun e
  start : b.upc = .write .w0 → b.outScl = true → e.scl = true

/-- The micro-steps of a byte command that can move the clock line: W0 and the two strobes (R95, R120). -/
theorem Block.ByteRun.upc_of_writes_sclLine {e : Env} {b : Block} {m : MicroStep} (h : b.ByteRun e)
    (hm : microcode b.upc = some m) (hne : (m.writes b).sclLine e ≠ b.sclLine e) :
    b.upc = .write .w0 ∨ b.upc = .transfer .t2 ∨ b.upc = .transfer .t5 := by
  have hany := MicroStep.writes_sclLine hm hne
  rcases h.upc_cases with hu | ⟨-, l, hu⟩ | ⟨-, l, hu⟩ | ⟨-, l, hu⟩ | ⟨l, hu⟩
  · simp [hu] at hany
  · simpa [hu] using hany
  · simp [hu] at hany
  · simp [hu] at hany
  · simpa [hu] using hany

/-- A micro-step makes a rising edge only with `XFER = 1` (R97). -/
theorem Block.ByteRun.xfer_of_rise {e : Env} {b b' : Block} (h : b.ByteRun e) (hs : b.seqStep e = some b')
    (hlow : b.sclLine e = false) (hhigh : b'.sclLine e = true) : b'.xfer = true := by
  have h' := h.seqStep hs
  obtain ⟨m, hm, -, rfl⟩ := h.phases hs
  rw [Block.lineUpdate_sclLine] at hhigh
  rcases h.upc_of_writes_sclLine (e := e) hm (by simp [hlow, hhigh]) with hu | hu | hu
  · obtain rfl : writeProgram .w0 = m := by simpa [hu, microcode] using hm
    simp [Block.sclLine, Block.mScl, writeProgram, h.shaped.dirScl] at hhigh
  · obtain rfl : transferProgram .t2 = m := by simpa [hu, microcode] using hm
    exact h'.shaped.xfer.trans (by simp [transferProgram, Label.shifting])
  · exact absurd (hlow.symm.trans (h.sclLine_high (.inr hu))) (by decide)

theorem Block.PulsesOnly.seqStep {e : Env} {b b' : Block} (h : b.PulsesOnly e) (hs : b.seqStep e = some b') :
    b'.PulsesOnly e :=
  ⟨h.run.seqStep hs, fun hu => absurd hu (Block.seqStep_upc_ne_first hs).2⟩

/-- The environment makes a rising edge only with `XFER = 1`, while the command is in progress (R46, R97). -/
theorem Block.PulsesOnly.xfer_of_env_rise {e e' : Env} {b : Block} (h : b.PulsesOnly e) (hb : b.busy = true)
    (hlow : b.sclLine e = false) (hhigh : b.sclLine e' = true) : b.xfer = true := by
  have hidle : b.upc ≠ .idle := by simpa [hb] using h.run.shaped.busy
  have hw0 : b.upc ≠ .write .w0 := by
    intro hu
    have ho : b.outScl = true := (Block.sclLine_eq_true.mp hhigh).1 h.run.shaped.dirScl
    simp [h.run.sclLine, ho, h.start hu ho] at hlow
  rw [h.run.shaped.xfer, h.run.upc_of_env_rise hlow hhigh hidle hw0]
  rfl

theorem Block.PulsesOnly.envStep {s : State} {l : Line} (h : s.blk.PulsesOnly s.env)
    (hp : Move.env1 s (.environment l) = true) : (s.envStep l).blk.PulsesOnly (s.envStep l).env := by
  refine ⟨h.run.envStep hp, fun hu ho => ?_⟩
  have hu' : s.blk.upc = .write .w0 := by simpa using hu
  have ho' : s.blk.outScl = true := by simpa using ho
  have he := h.start hu' ho'
  exact (State.env1_scl hp (Block.sclLine_eq_true.mpr ⟨fun _ => ho', he⟩)).trans he

/-- A step of a bus that keeps to a list of contributions, every rising edge a sample: it takes no entry and no sample,
or the next entry and a sample of it (R46, ENV4). -/
theorem contributes_cons {cur : Level} {bits : List Level} {s : State} {e : Event} {es : List Event}
    (hx : s.sclLine = false → e.after.sclLine = true → e.after.blk.xfer = true)
    (h : contributes cur bits s (e :: es) = true) :
    ∃ cur' bits', contributes cur' bits' e.after es = true ∧
      ((sampleAt s e = [] ∧ bits' = bits) ∨
        (∃ x, sampleAt s e = [x] ∧ x.env = bits.headD true ∧ bits' = bits.tail)) := by
  by_cases hr : s.sclLine = false ∧ e.after.sclLine = true
  · obtain ⟨hlow, hhigh⟩ := hr
    simp only [contributes, hlow, hhigh, Bool.not_false, Bool.and_self, if_true, Bool.and_eq_true, beq_iff_eq] at h
    exact ⟨_, _, h.2, .inr ⟨_, sampleAt_rise hlow hhigh (hx hlow hhigh), h.1.1, rfl⟩⟩
  · have hif : (!s.sclLine && e.after.sclLine) = false := by simpa using hr
    simp only [contributes, hif, Bool.false_eq_true, if_false, Bool.and_eq_true] at h
    exact ⟨_, _, h.2, .inl ⟨sampleAt_eq_nil fun ⟨hlow, hhigh, _⟩ => hr ⟨hlow, hhigh⟩, rfl⟩⟩

/-- Where a trail keeps to a list of contributions with one entry for each sample, these are what the environment
gives the samples (R46, ENV4). -/
def SamplesFollow (s : State) (es : List Event) : Prop :=
  ∀ (cur : Level) (bits : List Level), contributes cur bits s es = true →
    (risingSamples s es).length = bits.length → (risingSamples s es).map Sample.env = bits

theorem risingSamples_cons (s : State) (e : Event) (es : List Event) :
    risingSamples s (e :: es) = sampleAt s e ++ risingSamples e.after es := by
  simp only [risingSamples_eq_observed, observed]

theorem SamplesFollow.cons {s : State} {e : Event} {es : List Event} (h : SamplesFollow e.after es)
    (hx : s.sclLine = false → e.after.sclLine = true → e.after.blk.xfer = true) : SamplesFollow s (e :: es) := by
  intro cur bits hc hlen
  rw [risingSamples_cons] at hlen ⊢
  obtain ⟨cur', bits', hc', ⟨hnone, rfl⟩ | ⟨x, hone, hbit, rfl⟩⟩ := contributes_cons hx hc
  · rw [hnone, List.nil_append] at hlen ⊢
    exact h cur' bits' hc' hlen
  · rw [hone, List.singleton_append] at hlen ⊢
    cases bits with
    | nil => simp at hlen
    | cons bit bits =>
      rw [List.map_cons, hbit, h cur' bits hc' (by simpa using hlen)]
      rfl

/-- Neither reading depends on what is planned (log 2). -/
theorem samplesFollow_agenda {s : State} {a : List Move} {es : List Event} :
    SamplesFollow { s with agenda := a } es ↔ SamplesFollow s es := by
  cases es with
  | nil => exact Iff.rfl
  | cons e es => exact Iff.rfl

/-- So it is all along a byte command on a bus that meets ENV1: every rising edge is a sample. -/
theorem State.BusRun.samplesFollow {s t : State} {es : List Event} (h : BusRun Move.env1 s es t)
    (hs : s.blk.PulsesOnly s.env) : SamplesFollow s es := by
  induction h with
  | refl s => exact fun cur bits _ hlen => (List.length_eq_zero_iff.mp hlen.symm).symm
  | planned a _ ih => exact samplesFollow_agenda.mp (ih hs)
  | micro hu _ ih =>
    obtain ⟨-, b, hb, rfl⟩ := State.seqStep_some hu
    exact (ih (hs.seqStep hb)).cons (hs.run.xfer_of_rise hb)
  | @environment s t es l hbusy hp _ ih =>
    refine (ih (hs.envStep hp)).cons fun hlow hhigh => ?_
    have hline : (s.envStep l).sclLine = s.blk.sclLine (s.env.flip l) := Block.lineUpdate_sclLine _ _ _ _
    exact ((Block.lineUpdate_agrees _ _ _ _).xfer).trans (hs.xfer_of_env_rise hbusy hlow (hline.symm.trans hhigh))
  | read _ ih => exact (ih hs).cons fun hlow hhigh => absurd (hlow.symm.trans hhigh) (by decide)

/-- The levels sampled, from the two sides of the line (R43). -/
theorem levels_eq_zipWith {xs : List Sample} (h : ∀ x ∈ xs, x.level = (x.driven && x.env)) :
    xs.map Sample.level = List.zipWith and (xs.map Sample.driven) (xs.map Sample.env) := by
  induction xs with
  | nil => rfl
  | cons x xs ih =>
    simp only [List.map_cons, List.zipWith_cons_cons, h x List.mem_cons_self,
      ih fun y hy => h y (List.mem_cons_of_mem x hy)]

/-- A byte command that completes on a bus that meets ENV1 and ENV4, issued with the clock line as R46 has it: its
samples take the slave's contributions one by one. -/
theorem exec_byte_contributions {i : Instr} {s t : State} {role : SlaveRole}
    (hi : i.opcode = 3#3 ∨ i.opcode = 4#3 ∨ i.opcode = 5#3)
    (h : s.inv = true) (hr : s.ready = true) (hc : s.blk.control = Config.controlWord) (hno : s.noReset = true)
    (hclk : s.blk.outScl = false ∨ s.env.scl = true) (henv1 : (s.accepted i).env1 = true)
    (henv4 : (s.accepted i).env4 role = true) (hrole : role.contributions.length = 9)
    (he : exec i s = .next t) (hdone : t.completed = true) :
    (risingSamples (s.accepted i) (s.accepted i).trail).map Sample.env = role.contributions := by
  obtain ⟨hstart, hbus, -, -, xs, ack, hzs, hend⟩ := exec_byte_samples hi h hr hc hno henv1 he hdone
  have hpulses : (s.accepted i).blk.PulsesOnly (s.accepted i).env :=
    ⟨hstart.run, fun _ ho => hclk.resolve_left (by simpa using ho)⟩
  exact hbus.samplesFollow hpulses true _ henv4 (by rw [hzs, hrole, List.length_append, hend.length]; rfl)

/-- Settles O46: the levels sampled are the AND of the bits the block drives and the slave's contributions. -/
theorem conformingSlavesAreUnderstood : Obligations.ConformingSlavesAreUnderstood := by
  intro s h hr hc hno hclk
  refine ⟨fun d accepts t henv1 _ henv4 he hdone => ?_, fun i d byte t hi henv1 _ henv4 he hdone => ?_⟩
  · obtain ⟨xs, ack, hzs, hdriven, hanswer, hlevel, hack, -, -⟩ :=
      writeSendsItsBitsAndReturnsTheAcknowledge d s t h hr hc hno henv1 he hdone
    have henv := exec_byte_contributions (.inl rfl) h hr hc hno hclk henv1 henv4 rfl he hdone
    have hlevels : (xs ++ [ack]).map Sample.level = bitsOf d ++ [!accepts] := by
      rw [levels_eq_zipWith hlevel, ← hzs, henv, hzs, List.map_append, hdriven, List.map_singleton, hanswer]
      simp [bitsOf, SlaveRole.contributions]
    rw [hzs, hlevels]
    rw [List.map_append] at hlevels
    have hbit : ack.level = !accepts := by simpa using (List.append_inj' hlevels rfl).2
    exact ⟨by simp [hack, hbit], rfl⟩
  · obtain ⟨xs, ack, hzs, hlen, hdriven, hlevel, hanswer, hrxb, hdata, -⟩ :=
      readsReturnTheSampledByteAndAnswer i d s t hi h hr hc hno henv1 he hdone
    have hio : i.opcode = 3#3 ∨ i.opcode = 4#3 ∨ i.opcode = 5#3 := by
      rcases hi with rfl | rfl <;> simp [Instr.opcode]
    have henv := exec_byte_contributions hio h hr hc hno hclk henv1 henv4 rfl he hdone
    have hlevels : (xs ++ [ack]).map Sample.level = bitsOf byte ++ [i == .readNack d] := by
      have hreleased : xs.map Sample.driven = List.replicate 8 true :=
        List.eq_replicate_iff.mpr ⟨by simpa using hlen, by simpa using hdriven⟩
      rw [levels_eq_zipWith hlevel, ← hzs, henv, hzs, List.map_append, hreleased, List.map_singleton, hanswer]
      simp [bitsOf, SlaveRole.contributions]
    rw [hzs, hlevels]
    rw [List.map_append] at hlevels
    have hbyte : t.blk.rxb = byte := by
      rw [hrxb, (List.append_inj' hlevels rfl).1, packByte_bitsOf]
    exact ⟨hdata.trans hbyte, hbyte, rfl⟩

end Sys2Proof.Machine
end

section
/-! SUPPORT. Command words and commands (R60, R61, R63, R64): the decoder and the encoder undo each other, and the
decoder is silent on the two reserved opcodes. -/

namespace Sys2Proof

/-- The eight values of the opcode field (R60, R61, R63). -/
theorem opcode_cases (o : Opcode) :
    o = 0#3 ∨ o = 1#3 ∨ o = 2#3 ∨ o = 3#3 ∨ o = 4#3 ∨ o = 5#3 ∨ o = 6#3 ∨ o = 7#3 := by
  revert o
  decide

@[simp] theorem opcodeField_encode (i : Instr) : opcodeField (encode i) = i.opcode := by
  rw [encode_eq_append, opcodeField_append]

@[simp] theorem operandField_encode (i : Instr) : operandField (encode i) = i.operand := by
  rw [encode_eq_append, operandField_append]

/-- The word of a command decodes to it, its operand bits included (R61, R64). -/
@[simp] theorem decode_encode (i : Instr) : decode (encode i) = some i := by
  rw [encode_eq_append, decode_append]
  cases i <;> rfl

/-- The command a word decodes to carries the word's two fields (R60, R61). -/
theorem fields_of_decode {w : CmdWord} {i : Instr} (h : decode w = some i) :
    i.opcode = opcodeField w ∧ i.operand = operandField w := by
  rw [word_eq_append w, decode_append] at h
  generalize opcodeField w = o at h
  rcases opcode_cases o with rfl | rfl | rfl | rfl | rfl | rfl | rfl | rfl <;> simp at h <;> subst h <;>
    exact ⟨rfl, rfl⟩

/-- A word has no command exactly where its opcode is reserved (R63 (a)). -/
theorem decode_eq_none_iff (w : CmdWord) : decode w = none ↔ opcodeField w = 6#3 ∨ opcodeField w = 7#3 := by
  rw [word_eq_append w, decode_append, opcodeField_append]
  rcases opcode_cases (opcodeField w) with h | h | h | h | h | h | h | h <;> simp [h]

/-- Settles O6: a word is its two fields, and so is the word of the command it decodes to. -/
theorem decodeAndEncodeAgree : Obligations.DecodeAndEncodeAgree := by
  refine ⟨fun w i => ⟨fun h => ?_, fun h => ?_⟩, decode_eq_none_iff⟩
  · obtain ⟨ho, hd⟩ := fields_of_decode h
    rw [encode_eq_append, ho, hd]
    exact (word_eq_append w).symm
  · rw [← h]
    exact decode_encode i

/-- Settles O7: the table of 95_test_vectors.md section 2.1, word by word. -/
theorem wordsOfTheSpecDecode : Obligations.WordsOfTheSpecDecode := by
  unfold Obligations.WordsOfTheSpecDecode
  decide

end Sys2Proof
end

section
/-! SUPPORT. The acceptance and the refusal of a command (R62, R63, R110). -/

namespace Sys2Proof.Machine

/-- A ready machine fetches the first word of its script at the host's turn, and where no move is planned (R62,
R166). -/
theorem State.fetch_of_ready {s : State} {w : CmdWord} {ws : List CmdWord} {ms : List Move}
    (hr : s.ready = true) (hs : s.script = w :: ws) (ha : s.agenda = .host :: ms ∨ (s.agenda = [] ∧ ms = [])) :
    s.fetch = some (w, { s with script := ws, agenda := ms }) := by
  rcases ha with ha | ⟨ha, rfl⟩
  · simp [State.fetch, hr, hs, ha]
  · simp [State.fetch, hr, hs, ha]

theorem State.fetch_of_not_ready {s : State} (hr : s.ready = false) : s.fetch = none := by
  simp [State.fetch, hr]

theorem step_of_fetch {s u : State} {w : CmdWord} {i : Instr} (hf : s.fetch = some (w, u))
    (hd : decode w = some i) : step s = exec i u := by
  simp [step, hf, hd]

/-- A reserved word is refused by its own name (R63 (a)). -/
theorem step_of_reserved {s u : State} {w : CmdWord} (hf : s.fetch = some (w, u)) (hd : decode w = none) :
    step s = .refused (.reservedCommand w) := by
  simp [step, hf, hd, State.refuseReserved]

/-- Settles O1: the fetch takes the word and the host's turn away, and the step executes what it decodes to. -/
theorem stepRunsTheDecodedCommand : Obligations.StepRunsTheDecodedCommand :=
  fun _ _ _ _ _ hr hs ha hd => step_of_fetch (State.fetch_of_ready hr hs ha) hd

/-- A command other than INIT is refused before the first INIT (R63 (b)). -/
theorem exec_before_init {i : Instr} {s : State} (hr : s.ready = true) (ho : i.opcode ≠ 0#3)
    (hc : s.blk.control ≠ Config.controlWord) : exec i s = .refused (.commandBeforeInit i.opcode) := by
  simp [exec_eq, ho, State.issueAfterInit, hr, hc]

/-- A command presented to a machine that is not ready has no effect (R62, R150). -/
theorem exec_of_not_ready (i : Instr) {s : State} (hr : s.ready = false) : exec i s = .next s := by
  simp [exec_eq, State.issueAfterInit, State.issue, hr]

/-- Settles O3: the two refusals, and the run of every other command. -/
theorem reservedWordsAndEarlyCommandsAreRefused : Obligations.ReservedWordsAndEarlyCommandsAreRefused := by
  intro s hr
  refine ⟨fun w ws ms hs ha ho => ?_, fun i ho hc => exec_before_init hr ho hc,
    fun i _ hc => ⟨_, exec_of_ready hr (.inr hc)⟩, fun d => ⟨_, exec_of_ready hr (.inl rfl)⟩⟩
  have hd : decode w = none := (decode_eq_none_iff w).mpr ho
  rcases ha with ha | ha
  · exact step_of_reserved (State.fetch_of_ready hr hs (.inl ha)) hd
  · exact step_of_reserved (State.fetch_of_ready hr hs (.inr ⟨ha, rfl⟩)) hd

/-- Settles O4: a busy block is not ready, so the host's turn passes with nothing fetched. -/
theorem aBusyBlockAcceptsNothing : Obligations.ABusyBlockAcceptsNothing := by
  intro s hb
  have hr : s.ready = false := by simp [State.ready, Block.cmdReady, hb]
  refine ⟨fun i => exec_of_not_ready i hr, fun ms ha => ?_⟩
  rw [step_of_fetch_none (State.fetch_of_not_ready hr), State.advance_of_agenda_cons ha]
  rfl

/-- Settles O5: the run starts from the state of acceptance, whose latch holds the fields of the word. -/
theorem acceptanceLatchesTheCommand : Obligations.AcceptanceLatchesTheCommand := by
  intro i s hr hc
  rw [exec_of_ready hr hc, opcodeField_encode, operandField_encode]
  cases i <;> rfl

end Sys2Proof.Machine
end

section
/-! SUPPORT. FIN, and the response it leaves (R65, R66, R92, R165). -/

namespace Sys2Proof.Machine

/-- The micro-step of a FIN label is FIN and nothing else (R92). -/
theorem Block.seqStep_fin {e : Env} {b b' : Block} {r : Result} {next : Label} (h : b.seqStep e = some b')
    (hm : microcode b.upc = some ⟨.fin r, next⟩) : b' = b.fin r := by
  obtain ⟨m, hm', -, rfl⟩ := Block.seqStep_phases h
  obtain rfl := Option.some.inj (hm.symm.trans hm')
  rfl

/-- What each FIN label leaves (R65, R110 to R112, R120 to R122). -/
theorem Block.seqStep_at_fin {e : Env} {b b' : Block} (h : b.seqStep e = some b')
    (hu : b.upc = .init .iFin ∨ b.upc = .start .sFin ∨ b.upc = .stop .pFin ∨ b.upc = .write .wFin ∨
      b.upc = .readAck .aFin ∨ b.upc = .readNack .nFin) :
    b' = { b with
      rspAck := if b.upc = .write .wFin then !b.cap.getLsbD 0 else false
      rspData := if b.upc = .readAck .aFin ∨ b.upc = .readNack .nFin then b.rxb else 0x00#8
      rspValid := true
      busy := false
      upc := .idle } := by
  rcases hu with hu | hu | hu | hu | hu | hu <;> rw [Block.seqStep_fin h (by rw [hu]; rfl)] <;>
    simp [Block.fin, Block.resultOf, Block.acknowledged, hu]

/-- Settles O17: only a FIN label changes `BUSY`, and there the step is FIN. -/
theorem onlyFinEndsACommand : Obligations.OnlyFinEndsACommand := by
  intro e b b' h
  have hbusy : b.busy = true := (Block.seqStep_some h).1
  have hends := fun hb : b'.busy = false => (Block.seqStep_busy h (by simp [hb, hbusy])).2
  exact ⟨⟨hends, fun hu => by rw [Block.seqStep_at_fin h hu]⟩, fun hb => Block.seqStep_at_fin h (hends hb)⟩

/-- The line update leaves the response (R28, R84). -/
@[simp] theorem Block.lineUpdate_response (e : Env) (scl0 sda0 : Level) (b : Block) :
    (b.lineUpdate e scl0 sda0).response = b.response := by
  simp [Block.response]

/-- With no command in progress no move but reset changes what the host reads (R66). -/
theorem State.move_response {m : Move} {s : State} (hb : s.blk.busy = false) (hm : m ≠ .assertReset) :
    (s.move m).blk.response = s.blk.response := by
  rcases State.move_cases m s with h | h | ⟨l, -, -, h⟩ | ⟨h, -⟩ | ⟨-, h⟩
  · rw [h]
  · rw [State.seqStep_of_not_busy hb] at h
    exact absurd h (by simp)
  · simp [h]
  · exact absurd h hm
  · simp [h]

/-- Settles O59: a step that accepts no word is a move, and at a boundary the sequencer takes none. -/
theorem theResponseStaysUntilTheNextCommand : Obligations.TheResponseStaysUntilTheNextCommand := by
  intro s t hb hf hhead hs
  refine ⟨?_, rfl⟩
  rw [step_of_fetch_none hf] at hs
  cases ha : s.agenda with
  | nil =>
    obtain rfl := Host.Outcome.next.inj ((State.advance_of_not_busy ha hb).symm.trans hs)
    rfl
  | cons m ms =>
    obtain rfl := Host.Outcome.next.inj ((State.advance_of_agenda_cons ha).symm.trans hs)
    exact State.move_response (s := { s with agenda := ms }) hb (by simpa [ha] using hhead)

end Sys2Proof.Machine
end

section
/-! SUPPORT. The host's moves during a command: they change nothing, so the run is that of the other agents' moves
(R62, R155, R165). -/

namespace Sys2Proof.Machine

/-- A move does not depend on what is planned after it (log 2). -/
theorem State.move_agenda (m : Move) (a : List Move) (s : State) :
    State.move m { s with agenda := a } = { s.move m with agenda := a } := by
  cases m with
  | sequencer =>
    cases hr : s.rst with
    | true => simp [State.move, State.seqStep, hr]
    | false => cases hb : s.blk.seqStep s.env <;> simp [State.move, State.seqStep, hr, hb]
  | environment l => cases hr : s.rst <;> simp [State.move, State.envStep, State.sclLine, State.sdaLine, hr]
  | host => rfl
  | readResponse => rfl
  | wait => rfl
  | assertReset => rfl
  | releaseReset => rfl

/-- The sequencer alone leaves the environment, the reset input, the script and what is planned. -/
theorem State.runQuiet_frame (n : Nat) (s : State) :
    (s.runQuiet n).env = s.env ∧ (s.runQuiet n).rst = s.rst ∧ (s.runQuiet n).script = s.script ∧
      (s.runQuiet n).agenda = s.agenda := by
  refine State.runQuiet_keeps
    (P := fun t => t.env = s.env ∧ t.rst = s.rst ∧ t.script = s.script ∧ t.agenda = s.agenda)
    (fun t u ht hu => ?_) n s ⟨rfl, rfl, rfl, rfl⟩
  obtain ⟨he, hr, hs, ha⟩ := State.seqStep_frame hu
  exact ⟨he.trans ht.1, hr.trans ht.2.1, hs.trans ht.2.2.1, ha.trans ht.2.2.2⟩

/-- The moves that are not the host's presenting, reading or waiting (R165). -/
def Move.ofOthers (m : Move) : Bool := m != .host && m != .readResponse && m != .wait

theorem State.move_of_host {m : Move} (h : m.ofOthers = false) (s : State) : s.move m = s := by
  cases m <;> simp [Move.ofOthers] at h <;> rfl

/-- The machine with the host's moves taken out of its agenda. -/
def State.withoutHost (s : State) : State := { s with agenda := s.agenda.filter Move.ofOthers }

theorem State.withoutHost_of_quiet {s : State} (ha : s.agenda = []) : s.withoutHost = s := by
  cases s
  obtain rfl := ha
  rfl

/-- The run of a command is the same with the host's moves taken out, one planned move after the other. -/
theorem State.runAgenda_withoutHost (ms : List Move) (s : State) (ha : s.agenda = ms) :
    State.runAgenda (ms.filter Move.ofOthers) s.withoutHost = (State.runAgenda ms s).withoutHost := by
  induction ms generalizing s with
  | nil =>
    have hend : (s.runQuiet maxMicroSteps).agenda = [] := (State.runQuiet_frame _ s).2.2.2.trans ha
    rw [State.withoutHost_of_quiet ha]
    exact (State.withoutHost_of_quiet hend).symm
  | cons m ms ih =>
    cases hb : s.blk.busy with
    | false =>
      rw [State.runAgenda_of_not_busy hb]
      exact State.runAgenda_of_not_busy (s := s.withoutHost) hb _
    | true =>
      have hmove := ih _ (State.move_frame m { s with agenda := ms }).2
      rw [State.runAgenda_cons_of_busy hb, ← hmove]
      cases hm : m.ofOthers with
      | false => simp [State.move_of_host hm, State.withoutHost, ha, hm]
      | true =>
        rw [List.filter_cons_of_pos hm, State.runAgenda_cons_of_busy (by exact hb)]
        simp only [State.withoutHost, State.move_agenda]

/-- Settles O60: the acceptance leaves the agenda, and the run takes the host's moves as nothing. -/
theorem hostMovesDoNotDisturbACommand : Obligations.HostMovesDoNotDisturbACommand := by
  intro i s t h
  change exec i s.withoutHost = .next t.withoutHost
  rcases exec_next h with ⟨hr, rfl⟩ | ⟨hr, hc, rfl⟩
  · exact exec_of_not_ready i hr
  · rw [exec_of_ready (s := s.withoutHost) hr hc]
    exact congrArg Host.Outcome.next (State.runAgenda_withoutHost s.agenda (s.accepted i) rfl)

end Sys2Proof.Machine
end

section
/-! SUPPORT. The text form of a command (R69, R70): comments, tokens, and the two forms of an operand. -/

namespace Sys2Proof.Machine.TextForm

/-! ## Comments and tokens -/

/-- What may follow a command on its line: nothing, or a comment, with a blank before it or not (R69; log 19). -/
def IsTail (c : List Char) : Prop := c = [] ∨ (∃ r, c = ';' :: r) ∨ ∃ r, c = ' ' :: ';' :: r

theorem dropComment_append {l : List Char} (hl : ';' ∉ l) (c : List Char) :
    dropComment (l ++ c) = l ++ dropComment c := by
  induction l with
  | nil => rfl
  | cons x xs ih =>
    obtain ⟨hx, hxs⟩ : ';' ≠ x ∧ ';' ∉ xs := by simpa using hl
    simp [dropComment, ih hxs, hx.symm]

theorem dropComment_of_clean {l : List Char} (hl : ';' ∉ l) : dropComment l = l := by
  simpa [dropComment] using dropComment_append hl []

/-- A blank at the end of a line ends its last token, as the end of the line does. -/
theorem tokensFrom_append_blank (cur l : List Char) : tokensFrom cur (l ++ [' ']) = tokensFrom cur l := by
  induction l generalizing cur with
  | nil => cases cur <;> simp [tokensFrom, isBlank]
  | cons x xs ih => simp only [List.cons_append, tokensFrom, ih]

/-- Characters that are no blanks go on with the token being read. -/
theorem tokensFrom_of_no_blank {w : List Char} (hw : ∀ c ∈ w, isBlank c = false) (cur : List Char) :
    tokensFrom cur w = if (cur ++ w).isEmpty then [] else [cur ++ w] := by
  induction w generalizing cur with
  | nil => simp [tokensFrom]
  | cons x xs ih =>
    obtain ⟨hx, hxs⟩ := List.forall_mem_cons.mp hw
    simp [tokensFrom, hx, ih hxs]

/-- What follows the command on its line changes nothing (R69). -/
theorem parseLine_append_tail {l c : List Char} (hl : ';' ∉ l) (hc : IsTail c) :
    parseLine (l ++ c) = parseLine l := by
  rw [parseLine, parseLine, dropComment_append hl, dropComment_of_clean hl]
  rcases hc with rfl | ⟨r, rfl⟩ | ⟨r, rfl⟩
  · simp [dropComment]
  · simp [dropComment]
  · simp [dropComment, tokensFrom_append_blank]

/-! ## Operands -/

/-- A character that can stand in an operand: it ends neither the token nor the command. -/
def IsPlain (c : Char) : Prop := c ≠ ';' ∧ isBlank c = false

theorem parseTokens_write (cs : List Char) :
    parseTokens [['W', 'R', 'I', 'T', 'E'], cs] = (parseByte cs).map .write := rfl

/-- WRITE reads the operand that its second token is (R69). -/
theorem parseLine_write {cs c : List Char} {d : Byte} (hcs : ∀ x ∈ cs, IsPlain x) (hd : parseByte cs = some d)
    (hc : IsTail c) : parseLine (['W', 'R', 'I', 'T', 'E', ' '] ++ cs ++ c) = some (.write d) := by
  have hclean : ';' ∉ ['W', 'R', 'I', 'T', 'E', ' '] ++ cs := by
    intro hm
    rcases List.mem_append.mp hm with hm | hm
    · exact absurd hm (by decide)
    · exact (hcs _ hm).1 rfl
  have hne : cs ≠ [] := by rintro rfl; simp [parseByte] at hd
  have htoken : tokensFrom [] cs = [cs] := by
    simp [tokensFrom_of_no_blank fun x hx => (hcs x hx).2, hne]
  have htokens : tokensFrom [] (['W', 'R', 'I', 'T', 'E', ' '] ++ cs) = [['W', 'R', 'I', 'T', 'E'], cs] := by
    simp [tokensFrom, isBlank, htoken]
  rw [parseLine_append_tail hclean hc, parseLine, dropComment_of_clean hclean, htokens,
    parseTokens_write, hd]
  rfl

/-- A digit printed in hexadecimal reads back (R69). -/
theorem hexDigit_hexChar {v : Nat} (hv : v < 16) : hexDigit (hexChar v) = some v := by
  have hall : ∀ v : Fin 16, hexDigit (hexChar v) = some v.val := by decide
  exact hall ⟨v, hv⟩

theorem isPlain_hexChar {v : Nat} (hv : v < 16) : IsPlain (hexChar v) := by
  have hall : ∀ v : Fin 16, hexChar v ≠ ';' ∧ isBlank (hexChar v) = false := by decide
  exact hall ⟨v, hv⟩

/-- A byte printed in hexadecimal reads back, digit by digit (R69). -/
theorem parseByte_renderByte (d : Byte) : parseByte (renderByte d) = some d := by
  have hhi : d.toNat / 16 < 16 := by omega
  have hlo : d.toNat % 16 < 16 := by omega
  have hsum : 16 * (d.toNat / 16) + d.toNat % 16 = d.toNat := Nat.div_add_mod _ _
  simp [renderByte, parseByte, hexDigit_hexChar hhi, hexDigit_hexChar hlo, hsum]

theorem isPlain_of_mem_renderByte {d : Byte} {x : Char} (hx : x ∈ renderByte d) : IsPlain x := by
  simp only [renderByte, List.mem_cons, List.not_mem_nil, or_false] at hx
  rcases hx with rfl | rfl | rfl | rfl
  · exact ⟨by decide, by decide⟩
  · exact ⟨by decide, by decide⟩
  · exact isPlain_hexChar (by omega)
  · exact isPlain_hexChar (by omega)

theorem toNat_of_isDigit {x : Char} (hx : x.isDigit = true) : 48 ≤ x.toNat ∧ x.toNat ≤ 57 := by
  simpa [Char.isDigit, UInt32.le_iff_toNat_le] using hx

theorem decimalDigit_of_isDigit {x : Char} (hx : x.isDigit = true) :
    decimalDigit x = some (x.toNat - '0'.toNat) := by
  obtain ⟨hlow, hhigh⟩ := toNat_of_isDigit hx
  have hplace : x.toNat - 48 < 10 := by omega
  simp [decimalDigit, digitFrom, hlow, hplace]

theorem isPlain_of_isDigit {x : Char} (hx : x.isDigit = true) : IsPlain x := by
  have hne (y : Char) (hy : y.isDigit = false) : x ≠ y := by rintro rfl; simp [hx] at hy
  simp [IsPlain, isBlank, hne ';' (by decide), hne ' ' (by decide), hne '\t' (by decide)]

/-- The decimal reader is the library's, where every character is a digit. -/
theorem decimalFrom_of_isDigit {cs : List Char} (hcs : ∀ x ∈ cs, x.isDigit = true) (acc : Nat) :
    decimalFrom acc cs = some (Nat.ofDigitChars 10 cs acc) := by
  induction cs generalizing acc with
  | nil => rfl
  | cons x xs ih =>
    obtain ⟨hx, hxs⟩ := List.forall_mem_cons.mp hcs
    simp [decimalFrom, decimalDigit_of_isDigit hx, ih hxs, Nat.ofDigitChars_cons]

/-- A byte written in decimal reads back (R69). -/
theorem parseByte_toDigits (d : Byte) : parseByte (Nat.toDigits 10 d.toNat) = some d := by
  have hdigits : ∀ x ∈ Nat.toDigits 10 d.toNat, x.isDigit = true :=
    fun x hx => Nat.isDigit_of_mem_toDigits (by decide) (by decide) hx
  have hvalue : decimalFrom 0 (Nat.toDigits 10 d.toNat) = some d.toNat := by
    rw [decimalFrom_of_isDigit hdigits, Nat.ofDigitChars_ten_toDigits]
  generalize hcs : Nat.toDigits 10 d.toNat = cs at hdigits hvalue ⊢
  unfold parseByte
  split
  · exact absurd hcs Nat.toDigits_ne_nil
  · exact absurd (hdigits 'x' (by simp)) (by decide)
  · simp [hvalue, d.isLt]

/-- Settles O8: what follows the command is dropped; an operand reads back in either form, and the commands
without one are fixed tokens. -/
theorem textFormReadsBack : Obligations.TextFormReadsBack := by
  intro c hc
  refine ⟨fun d => ?_, fun d => ?_, fun i hi => ?_, ?_⟩
  · exact parseLine_write (fun x => isPlain_of_mem_renderByte) (parseByte_renderByte d) hc
  · refine parseLine_write (fun x hx => isPlain_of_isDigit ?_) (parseByte_toDigits d) hc
    exact Nat.isDigit_of_mem_toDigits (by decide) (by decide) hx
  · have hall : ∀ i ∈ [Instr.init 0#8, .start 0#8, .stop 0#8, .readAck 0#8, .readNack 0#8],
        ';' ∉ render i ∧ parseLine (render i) = some i := by decide
    obtain ⟨hclean, hread⟩ := hall i hi
    rw [parseLine_append_tail hclean hc, hread]
  · rw [parseLine_append_tail (by decide) hc]
    decide

end Sys2Proof.Machine.TextForm
end

section
/-! SUPPORT. The events of a run: where they end, and the responses read off them (R65, R166). -/

namespace Sys2Proof.Machine

/-- The events of a run end where the run ends, but for the agenda, where a planned move that was not enabled leaves no
event (log 2). -/
theorem lastState_runTrail {n : Nat} {s t : State} (h : Host.Core.run Sys2Proof.core n s = .next t) :
    { lastState s (s.runTrail n) with agenda := t.agenda } = t := by
  induction n generalizing s with
  | zero =>
    obtain rfl := Host.Outcome.next.inj h
    rfl
  | succ n ih =>
    have hcore : Sys2Proof.core.step s = step s := rfl
    simp only [Host.Core.run, hcore] at h
    cases hs : step s with
    | fault r => simp [hs] at h
    | refused r => simp [hs] at h
    | next u =>
      rw [hs] at h
      rw [State.runTrail_succ hs, lastState_append,
        ← lastState_agenda u.agenda t.agenda (lastState s s.stepTrail) (u.runTrail n), State.stepTrail_last hs]
      exact ih h

/-! ## Responses -/

/-- The response of a state in which a command has just ended, if it completed (R65, R165). -/
def State.answer (t : State) : List (Level × Byte) :=
  if t.completed then [(t.blk.rspAck, t.blk.rspData)] else []

theorem State.answer_of_busy {t : State} (hb : t.blk.busy = true) : t.answer = [] := by
  simp [State.answer, State.completed, hb]

/-- A step that leaves a state as it is shows no response. -/
theorem State.answer_of_no_step (t : State) : (if t.blk.busy then t.answer else []) = [] := by
  cases hb : t.blk.busy <;> simp [State.answer_of_busy, hb]

theorem State.answer_of_completed {t : State} (hd : t.completed = true) :
    t.answer = [(t.blk.rspAck, t.blk.rspData)] := if_pos hd

/-- A command that is over when the state `t` is reached shows its response there, else where it ends. -/
theorem State.answer_append {t u : State} (h : t.blk.busy = false → u = t) :
    t.answer ++ (if t.blk.busy then u.answer else []) = u.answer := by
  cases hb : t.blk.busy with
  | true => simp [State.answer_of_busy hb]
  | false => simp [h hb]

theorem State.busy_of_seqStep {s t : State} (h : s.seqStep = some t) : s.blk.busy = true := by
  obtain ⟨-, b, hb, -⟩ := State.seqStep_some h
  exact (Block.seqStep_some hb).1

@[simp] theorem responses_nil : responses [] = [] := rfl

/-- Only a micro-step shows a response (R65). -/
theorem responses_of_no_label (t : State) : responses [⟨none, t⟩] = [] := rfl

/-- The event of a micro-step shows a response exactly where the micro-step ends the command (R65, R92). -/
theorem responses_of_seqStep {s t : State} (h : s.seqStep = some t) :
    responses [⟨some s.blk.upc, t⟩] = t.answer := by
  obtain ⟨-, b, hb, rfl⟩ := State.seqStep_some h
  have hfin : s.blk.upc.answers = true ↔ b.busy = false :=
    (Label.answers_iff _).trans (onlyFinEndsACommand _ _ _ hb).1.symm
  cases hbusy : b.busy with
  | true =>
    have hl : s.blk.upc.answers = false := by simpa [hbusy] using hfin
    simp [responses, Event.response, hl, State.answer, State.completed, hbusy]
  | false =>
    have hl : s.blk.upc.answers = true := hfin.mpr hbusy
    have hv : b.rspValid = true := (Block.seqStep_busy hb (by simp [hbusy, (Block.seqStep_some hb).1])).1
    simp [responses, Event.response, hl, State.answer, State.completed, hbusy, Block.response, hv]

/-- No move of another agent than the sequencer completes a command (R92, R151). -/
theorem State.move_answer {m : Move} {s : State} (hm : m ≠ .sequencer) (hb : s.blk.busy = true) :
    (s.move m).answer = [] := by
  cases m with
  | sequencer => exact absurd rfl hm
  | environment l => cases hr : s.rst <;> exact State.answer_of_busy (by simp [State.move, hr, hb])
  | host => exact State.answer_of_busy hb
  | readResponse => exact State.answer_of_busy hb
  | wait => exact State.answer_of_busy hb
  | assertReset => rfl
  | releaseReset => exact State.answer_of_busy hb

/-- The event of a move shows a response exactly where the move ends the command in progress. -/
theorem State.responses_eventOf (m : Move) (a : List Move) (s : State) :
    responses (s.eventOf m a) = if s.blk.busy then ({ s with agenda := a }.move m).answer else [] := by
  rw [State.eventOf, ← State.enabled_agenda m a s, ← State.performs_agenda m a s]
  change _ = if ({ s with agenda := a } : State).blk.busy then _ else _
  generalize ({ s with agenda := a } : State) = u
  by_cases hm : m = .sequencer
  · subst hm
    cases hq : u.seqStep with
    | none => simp [State.enabled, State.move, hq, State.answer_of_no_step]
    | some t =>
      simpa [State.enabled, State.performs, State.move, hq, State.busy_of_seqStep hq] using responses_of_seqStep hq
  · have hlabel : u.performs m = none := by
      cases m with
      | sequencer => exact absurd rfl hm
      | _ => rfl
    have hnone : (if u.blk.busy then (u.move m).answer else []) = [] := by
      cases hb : u.blk.busy <;> simp [State.move_answer hm, hb]
    rw [hlabel, hnone]
    split
    · exact responses_of_no_label _
    · rfl

theorem State.runQuiet_of_not_busy {s : State} (hb : s.blk.busy = false) (n : Nat) : s.runQuiet n = s := by
  cases n <;> simp [State.runQuiet, State.seqStep_of_not_busy hb]

theorem State.responses_trailQuiet (n : Nat) (s : State) :
    responses (s.trailQuiet n) = if s.blk.busy then (s.runQuiet n).answer else [] := by
  induction n generalizing s with
  | zero => exact (State.answer_of_no_step s).symm
  | succ n ih =>
    cases hq : s.seqStep with
    | none => simp [State.trailQuiet, State.runQuiet, hq, State.answer_of_no_step]
    | some t =>
      have happend := responses_append [⟨some s.blk.upc, t⟩] (t.trailQuiet n)
      rw [responses_of_seqStep hq, ih, State.answer_append fun ht => State.runQuiet_of_not_busy ht n] at happend
      simpa [State.trailQuiet, State.runQuiet, hq, State.busy_of_seqStep hq] using happend

/-- A command in progress shows one response if it completes, and none if it is abandoned or blocked, on every bus. -/
theorem State.responses_trailAgenda (ms : List Move) (s : State) :
    responses (State.trailAgenda ms s) = if s.blk.busy then (State.runAgenda ms s).answer else [] := by
  induction ms generalizing s with
  | nil => exact State.responses_trailQuiet _ s
  | cons m ms ih =>
    cases hb : s.blk.busy with
    | false => simp [State.trailAgenda, hb, responses]
    | true =>
      simp only [State.trailAgenda, hb, if_true, responses_append, State.responses_eventOf, ih,
        State.runAgenda_cons_of_busy hb]
      exact State.answer_append fun ht => State.runAgenda_of_not_busy ht ms

/-- The events of a step that accepts a word show the response of its command. -/
theorem State.responses_of_accepted {s u t : State} {w : CmdWord} {i : Instr} (hf : s.fetch = some (w, u))
    (hd : decode w = some i) (he : exec i u = .next t) : responses s.stepTrail = t.answer := by
  obtain ⟨hr, ws, -, hu⟩ := State.fetch_some hf
  have hur : u.ready = true := by
    rcases hu with ⟨-, rfl⟩ | ⟨ms, -, rfl⟩
    · exact hr
    · exact hr
  rcases exec_next he with ⟨hn, -⟩ | ⟨-, -, rfl⟩
  · exact absurd (hur.symm.trans hn) (by decide)
  · rw [State.stepTrail_of_accepted hf hd he]
    exact State.responses_trailAgenda _ (u.accepted i)

/-- The events of a step that accepts no word show a response only where the step ends a command. -/
theorem State.responses_of_fetch_none {s t : State} (hf : s.fetch = none) (hs : step s = .next t) :
    responses s.stepTrail = if s.blk.busy then t.answer else [] := by
  rw [step_of_fetch_none hf] at hs
  cases ha : s.agenda with
  | cons m ms =>
    obtain rfl := Host.Outcome.next.inj ((State.advance_of_agenda_cons ha).symm.trans hs)
    simpa [State.stepTrail, hf, ha] using State.responses_eventOf m ms s
  | nil =>
    cases hq : s.seqStep with
    | some u =>
      obtain rfl := Host.Outcome.next.inj ((State.advance_of_seqStep_some ha hq).symm.trans hs)
      simpa [State.stepTrail, hf, ha, hq, State.busy_of_seqStep hq] using responses_of_seqStep hq
    | none =>
      have hempty : s.stepTrail = [] := by simp [State.stepTrail, hf, ha, hq]
      have hstay : s = t := by
        cases hb : s.blk.busy with
        | false => simpa [State.advance_of_not_busy ha hb] using hs
        | true =>
          cases hr : s.rst with
          | false => simp [State.advance_of_hang ha hb hr hq] at hs
          | true => simpa [State.advance, ha, hr] using hs
      rw [hempty, ← hstay, State.answer_of_no_step, responses_nil]

end Sys2Proof.Machine
end

section
/-! SUPPORT. A session of the grammar on an idle bus, command by command (R153, R166). -/

namespace Sys2Proof.Machine

/-! ## The end of a command -/

/-- What the registers of a completed command hold by its opcode: the clock is held low but after INIT and STOP, and a
framing command answers nothing (R32, R65, R111). -/
structure Block.Ended (b : Block) : Prop where
  clock : b.op ≠ 0#3 → b.op ≠ 2#3 → b.outScl = false
  nothing : b.op = 1#3 ∨ b.op = 2#3 → b.rspAck = false ∧ b.rspData = 0x00#8

/-- The FIN of a command finds the registers in the shape of its label (R65, R92). -/
theorem Block.Shaped.ended {e : Env} {b b' : Block} (h : b.Shaped) (hs : b.seqStep e = some b')
    (hb : b'.busy = false) : b'.Ended := by
  have hu := (onlyFinEndsACommand e b b' hs).1.mp hb
  have hsh := h.shape
  rw [Block.seqStep_at_fin hs hu]
  rcases hu with hu | hu | hu | hu | hu | hu <;>
    simp only [Block.shape, hu, Bool.and_eq_true, beq_iff_eq, Bool.not_eq_true'] at hsh <;>
    constructor <;> simp [hu, hsh]

/-- Where the run of a command on a quiet bus stands: configured, the command latched, and its end, if it is over. -/
structure State.QuietRun (op : Opcode) (t : State) : Prop where
  inv : t.blk.inv t.env = true
  control : t.blk.control = Config.controlWord
  op : t.blk.op = op
  ended : t.blk.busy = false → t.blk.Ended

theorem State.QuietRun.seqStep {op : Opcode} {t u : State} (h : t.QuietRun op) (hu : t.seqStep = some u) :
    u.QuietRun op := by
  obtain ⟨-, b, hb, rfl⟩ := State.seqStep_some hu
  obtain ⟨m, hm, ha⟩ := Block.seqStep_agrees hb
  obtain ⟨hsh, -⟩ := Block.shaped_of_control h.inv h.control
  exact ⟨Block.inv_seqStep h.inv hb, ha.control.trans (MicroStep.writes_control hm h.control hsh.dirScl).1,
    (ha.op.trans (MicroStep.writes_writtenFrom hm).op).trans h.op, hsh.ended hb⟩

/-- The run of an accepted command with no move planned is the sequencer's alone. -/
theorem State.run_of_quiet {s : State} (ha : s.agenda = []) : s.run = s.runQuiet maxMicroSteps := by
  rw [State.run, ha]
  rfl

theorem State.trail_of_quiet {s : State} (ha : s.agenda = []) : s.trail = s.trailQuiet maxMicroSteps := by
  rw [State.trail, ha]
  rfl

/-! ## An idle bus -/

/-- The sequencer alone moves no line of the environment. -/
theorem State.trailQuiet_env (n : Nat) (s : State) : ∀ e ∈ s.trailQuiet n, e.after.env = s.env := by
  induction n generalizing s with
  | zero => simp [State.trailQuiet]
  | succ n ih =>
    cases hq : s.seqStep with
    | none => simp [State.trailQuiet, hq]
    | some t =>
      have ht : t.env = s.env := (State.seqStep_frame hq).1
      have hrest : ∀ e ∈ t.trailQuiet n, e.after.env = s.env := fun e he => (ih t e he).trans ht
      simpa [State.trailQuiet, hq, ht] using hrest

/-- An environment that never pulls the data line keeps to every list of released contributions (R46, ENV4). -/
theorem contributes_of_released {bits : List Level} {s : State} {es : List Event} (hbits : ∀ b ∈ bits, b = true)
    (hs : s.env.sda = true) (hes : ∀ e ∈ es, e.after.env.sda = true) : contributes true bits s es = true := by
  induction es generalizing bits s with
  | nil => rfl
  | cons e es ih =>
    obtain ⟨he, hrest⟩ := List.forall_mem_cons.mp hes
    have hhead : bits.headD true = true := by
      cases bits with
      | nil => rfl
      | cons b bs => exact hbits b List.mem_cons_self
    have htail : ∀ b ∈ bits.tail, b = true := fun b hb => hbits b (List.mem_of_mem_tail hb)
    simp only [contributes, hhead, hs, he, ih hbits he hrest, ih htail he hrest]
    split <;> simp

/-- A machine between two commands of a session on an idle bus, `inside` a transaction or not (R32, R153). -/
structure State.InSession (inside : Bool) (s : State) : Prop where
  inv : s.inv = true
  ready : s.ready = true
  control : s.blk.control = Config.controlWord
  agenda : s.agenda = []
  env : s.env = { sda := true, scl := true }
  clock : inside = true → s.blk.outScl = false

/-- The response of a command with nobody on the bus: a byte is not acknowledged, and a READ reads the released line
(R46, R65). -/
def idleAnswer : Instr → Level × Byte
  | .init _ => (false, 0x00#8)
  | .start _ => (false, 0x00#8)
  | .stop _ => (false, 0x00#8)
  | .write _ => (false, 0x00#8)
  | .readAck _ => (false, 0xFF#8)
  | .readNack _ => (false, 0xFF#8)

variable {inside : Bool} {s t : State} {i : Instr}

theorem State.InSession.env4 (h : s.InSession inside) {role : SlaveRole}
    (hrole : ∀ b ∈ role.contributions, b = true) : (s.accepted i).env4 role = true := by
  have hq : (s.accepted i).agenda = [] := h.agenda
  have hsda : (s.accepted i).env.sda = true := by simp [h.env]
  rw [State.env4, State.trail_of_quiet hq]
  refine contributes_of_released hrole hsda fun e he => ?_
  rw [State.trailQuiet_env _ _ e he, hsda]

/-- The answers of the byte commands are those of a slave that takes nothing, and sends ones (R46, R99). -/
theorem State.InSession.byte_answer (h : s.InSession inside) (hi : i.opcode = 3#3 ∨ i.opcode = 4#3 ∨ i.opcode = 5#3)
    (he : exec i s = .next t) (hd : t.completed = true) : (t.blk.rspAck, t.blk.rspData) = idleAnswer i := by
  have hno : s.noReset = true := by simp [State.noReset, h.agenda]
  have hclk : s.blk.outScl = false ∨ s.env.scl = true := .inr (by rw [h.env])
  have henv1 : (s.accepted i).env1 = true := by simp [State.env1, h.agenda, State.agendaMeets]
  have henv2 : (s.accepted i).env2 = true := by simp [State.env2, h.agenda, State.agendaMeets]
  obtain ⟨hwrite, hread⟩ := conformingSlavesAreUnderstood s h.inv h.ready h.control hno hclk
  have hreads (d : Byte) (hi : i = .readAck d ∨ i = .readNack d) : (t.blk.rspAck, t.blk.rspData) = (false, 0xFF#8) := by
    obtain ⟨-, -, -, -, -, -, -, -, -, hack⟩ :=
      readsReturnTheSampledByteAndAnswer i d s t hi h.inv h.ready h.control hno henv1 he hd
    rw [hack, (hread i d 0xFF#8 t hi henv1 henv2 (h.env4 (by decide)) he hd).1]
  cases i with
  | init d => simp [Instr.opcode] at hi
  | start d => simp [Instr.opcode] at hi
  | stop d => simp [Instr.opcode] at hi
  | write d =>
    obtain ⟨-, -, -, -, -, -, -, hdata, -⟩ :=
      writeSendsItsBitsAndReturnsTheAcknowledge d s t h.inv h.ready h.control hno henv1 he hd
    rw [hdata, (hwrite d false t henv1 henv2 (h.env4 (by decide)) he hd).1]
    rfl
  | readAck d => exact hreads d (.inl rfl)
  | readNack d => exact hreads d (.inr rfl)

/-- A command of a transaction completes on an idle bus, a READ inside one, with the answer of nobody, and the session
goes on (R153, R167). -/
theorem State.InSession.exec (h : s.InSession inside) (hi : i.opcode ≠ 0#3)
    (hread : i.opcode = 4#3 ∨ i.opcode = 5#3 → inside = true) :
    ∃ t, exec i s = .next t ∧ t.answer = [idleAnswer i] ∧ t.InSession (i.opcode != 2#3) ∧ t.script = s.script := by
  have hc : i.opcode = 0#3 ∨ s.blk.control = Config.controlWord := .inr h.control
  have hq : (s.accepted i).agenda = [] := h.agenda
  have henv3 : (s.accepted i).env3 = true := by simp [State.env3, h.agenda, State.afterAgenda, h.env]
  obtain ⟨t, he, hd, -⟩ := commandsTerminate i s h.inv h.ready hc (fun ho => h.clock (hread ho))
    (by simp [State.noReset, h.agenda]) henv3
  obtain ⟨hbusy, -⟩ : t.blk.busy = false ∧ t.blk.rspValid = true := by simpa [State.completed] using hd
  have ht : t = (s.accepted i).runQuiet maxMicroSteps := by
    rw [← State.run_of_quiet hq]
    exact Host.Outcome.next.inj (he.symm.trans (exec_of_ready h.ready hc))
  obtain ⟨henv, hrst, hscript, hagenda⟩ := State.runQuiet_frame maxMicroSteps (s.accepted i)
  rw [← ht] at henv hrst hscript hagenda
  have hend : t.QuietRun i.opcode := by
    rw [ht]
    refine State.runQuiet_keeps (P := State.QuietRun i.opcode) (fun _ _ hu => hu.seqStep) _ _ ?_
    exact ⟨(State.inv_iff.mp (State.inv_accepted h.inv h.ready hc)).1, h.control, rfl, nofun⟩
  have hended := hend.ended hbusy
  refine ⟨t, he, ?_, ⟨State.inv_exec h.inv he, ?_, hend.control, hagenda.trans h.agenda, henv.trans h.env, ?_⟩, hscript⟩
  · have hbyte := fun hi => h.byte_answer (i := i) hi he hd
    have hframing := fun ho => hended.nothing (hend.op ▸ ho)
    rw [State.answer_of_completed hd]
    cases i with
    | init d => exact absurd rfl hi
    | start d => simp [hframing (.inl rfl), idleAnswer]
    | stop d => simp [hframing (.inr rfl), idleAnswer]
    | write d => rw [hbyte (.inl rfl)]
    | readAck d => rw [hbyte (.inr (.inl rfl))]
    | readNack d => rw [hbyte (.inr (.inr rfl))]
  · exact State.ready_iff.mpr ⟨hrst.trans (State.ready_iff.mp h.ready).1, hbusy⟩
  · intro hin
    have hstop : i.opcode ≠ 2#3 := by simpa using hin
    exact hended.clock (by rwa [hend.op]) (by rwa [hend.op])

/-! ## Sessions -/

/-- A command of a transaction, and what follows it (R153). -/
theorem transactionsWf_cons {is : List Instr} (h : transactionsWf inside (i :: is) = true) :
    i.opcode ≠ 0#3 ∧ (i.opcode = 4#3 ∨ i.opcode = 5#3 → inside = true) ∧
      transactionsWf (i.opcode != 2#3) is = true := by
  cases i <;> cases inside <;> simp_all [transactionsWf, Instr.opcode]

theorem State.InSession.withScript (h : s.InSession inside) (ws : List CmdWord) :
    State.InSession inside { s with script := ws } :=
  ⟨h.inv, h.ready, h.control, h.agenda, h.env, h.clock⟩

/-- A step that accepts the next command of the script shows its response first. -/
theorem responses_runTrail_of_exec {ws : List CmdWord} (n : Nat) (hr : s.ready = true) (ha : s.agenda = [])
    (hs : s.script = encode i :: ws) (he : exec i { s with script := ws } = .next t) :
    responses (s.runTrail (n + 1)) = t.answer ++ responses (t.runTrail n) := by
  have hf : s.fetch = some (encode i, { s with script := ws }) := by
    rw [State.fetch_of_ready hr hs (.inr ⟨ha, rfl⟩), ← ha]
  have hstep : step s = .next t := (step_of_fetch hf (decode_encode i)).trans he
  rw [State.runTrail_succ hstep, responses_append, State.responses_of_accepted hf (decode_encode i) he]

theorem responses_of_transactions {is : List Instr} (hwf : transactionsWf inside is = true)
    (h : s.InSession inside) (hs : s.script = is.map encode) :
    responses (s.runTrail is.length) = is.map idleAnswer := by
  induction is generalizing inside s with
  | nil => rfl
  | cons i is ih =>
    obtain ⟨hi, hread, hrest⟩ := transactionsWf_cons hwf
    obtain ⟨t, he, hanswer, ht, hscript⟩ := (h.withScript (is.map encode)).exec hi hread
    rw [List.length_cons, responses_runTrail_of_exec _ h.ready h.agenda hs he, hanswer, ih hrest ht hscript]
    rfl

/-- INIT opens a session on an idle bus (R110, R152). -/
theorem exec_init_inSession (d : Byte) (hi : s.inv = true) (hr : s.ready = true) (ha : s.agenda = [])
    (henv : s.env = { sda := true, scl := true }) :
    ∃ t, exec (.init d) s = .next t ∧ t.answer = [idleAnswer (.init d)] ∧ t.InSession false ∧
      t.script = s.script := by
  have he := exec_init_of_quiet d hr (by simp [State.quiet, ha])
  exact ⟨_, he, rfl, ⟨State.inv_exec hi he, State.ready_iff.mpr ⟨(State.ready_iff.mp hr).1, rfl⟩, rfl, ha, henv, nofun⟩,
    rfl⟩

/-- A session on an idle bus shows the response of each command, in script order (R153, R166). -/
theorem responses_of_session {is : List Instr} (hwf : sessionWf is = true) (hi : s.inv = true) (hr : s.ready = true)
    (ha : s.agenda = []) (henv : s.env = { sda := true, scl := true }) (hs : s.script = is.map encode) :
    responses (s.runTrail is.length) = is.map idleAnswer := by
  cases is with
  | nil => simp [sessionWf] at hwf
  | cons i is =>
    obtain ⟨d, rfl⟩ : ∃ d, i = .init d := by cases i <;> simp_all [sessionWf]
    obtain ⟨t, he, hanswer, ht, hscript⟩ :=
      exec_init_inSession (s := { s with script := is.map encode }) d hi hr ha henv
    rw [List.length_cons, responses_runTrail_of_exec _ hr ha hs he, hanswer,
      responses_of_transactions hwf ht hscript]
    rfl

end Sys2Proof.Machine
end

section
/-! SUPPORT. What a run shows (R166). -/

namespace Sys2Proof.Machine

/-- Settles O51: the events end where the run ends, a step shows the response of the command it ends, and a session is
one such step after the other. -/
theorem runsShowTheirResponsesInOrder : Obligations.RunsShowTheirResponsesInOrder := by
  refine ⟨fun n s t h => ⟨lastState_runTrail h, ?_, rfl⟩, fun s t u w i hf hd hs => ?_, fun s t hf hs => ?_,
    fun is hwf => ?_⟩
  · have hlast := congrArg State.blk (lastState_runTrail h)
    exact hlast
  · have he : exec i u = .next t := (step_of_fetch hf hd).symm.trans hs
    refine ⟨State.stepTrail_of_accepted hf hd he, ?_, State.responses_of_accepted hf hd he⟩
    obtain ⟨-, ws, -, ⟨-, rfl⟩ | ⟨ms, -, rfl⟩⟩ := State.fetch_some hf
    · rfl
    · rfl
  · rw [State.responses_of_fetch_none hf hs]
    cases hb : s.blk.busy <;> simp [State.answer]
  · refine (responses_of_session (s := { State.reset with script := is.map encode }) hwf invariantHoldsAtReset
      rfl rfl rfl rfl).trans (List.map_congr_left fun i _ => ?_)
    cases i <;> rfl

end Sys2Proof.Machine
end

section
/-! SUPPORT. A micro-step from its writes, and the line update in the two cases of a clock pulse (R81, R84, R89). -/

namespace Sys2Proof.Machine

/-- The micro-step of a label with a phase 2, where no WAIT blocks it: its writes, then the line update (R81, R90). -/
theorem Block.seqStep_of_writes {e : Env} {b : Block} {m : MicroStep} (hb : b.busy = true)
    (hm : microcode b.upc = some m) (hl : m.op.updatesLines = true) (hw : m.op = .waitScl → b.sclLine e = true) :
    b.seqStep e = some ((m.writes b).lineUpdate e (b.sclLine e) (b.sdaLine e)) := by
  obtain ⟨b', hp⟩ : ∃ b', m.op.perform e m.next b = some b' := by
    refine Option.ne_none_iff_exists'.mp fun hn => ?_
    obtain ⟨hop, hlow⟩ := MicroOp.perform_eq_none.mp hn
    exact absurd ((hw hop).symm.trans hlow) (by decide)
  have hb' := (MicroOp.perform_some hp).2
  rw [hl, if_pos rfl] at hb'
  simp only [Block.seqStep, hb, hm, if_true, hp, hb', MicroStep.writes]

/-- Settles O14: the strobe's writes are the record of the statement. -/
theorem strobeTogglesAndCounts : Obligations.StrobeTogglesAndCounts := by
  intro e b hb hu
  have hovf : (b.fOvf || b.cnt == 15#4) = if b.cnt = 15#4 then true else b.fOvf := by
    split <;> simp [*]
  have hm : microcode b.upc =
      some ⟨.strobe, if b.upc = .transfer .t2 then .transfer .t3 else .transfer .t6⟩ := by
    rcases hu with hu | hu <;> rw [hu] <;> rfl
  rw [Block.seqStep_of_writes hb hm rfl nofun, ← hovf]
  rfl

/-- With the clock line low after the writes, the line update opens the latch and does nothing else (R15, R84). -/
theorem Block.lineUpdate_of_low {e : Env} {scl0 sda0 : Level} {b : Block} (ht : b.twm = true)
    (hlow : b.sclLine e = false) : b.lineUpdate e scl0 sda0 = { b with sdo := b.sr.getLsbD 7 } := by
  obtain ⟨hsr, hstart, hstop⟩ := Block.lineUpdate_low (scl0 := scl0) (sda0 := sda0) hlow
  rw [Block.lineUpdate_eq, hsr, hstart, hstop, Block.lineUpdate_sdo, ht, hlow]
  rfl

/-- With the clock held low after its writes, a micro-step leaves them and the latch (R84). -/
theorem Block.seqStep_of_low {e : Env} {b : Block} {m : MicroStep} (hb : b.busy = true) (hm : microcode b.upc = some m)
    (hl : m.op.updatesLines = true) (hw : m.op ≠ .waitScl) (hc : (m.writes b).control = Config.controlWord)
    (hd : (m.writes b).dirScl = true) (ho : (m.writes b).outScl = false) :
    b.seqStep e = some { m.writes b with sdo := (m.writes b).sr.getLsbD 7 } := by
  rw [Block.seqStep_of_writes hb hm hl fun h => absurd h hw, Block.lineUpdate_of_low (Block.twm_of_control hc)]
  simp [Block.sclLine_eq_outScl hd, ho]

/-- On a rising edge with `XFER = 1` the line update shifts the level before the edge in, and does nothing else (R83,
R84). -/
theorem Block.lineUpdate_of_rise {e : Env} {sda0 : Level} {b : Block} (ht : b.twm = true)
    (hhigh : b.sclLine e = true) (hx : b.xfer = true) :
    b.lineUpdate e false sda0 = { b with sr := shiftIn b.sr sda0 } := by
  rw [Block.lineUpdate_eq, Block.lineUpdate_sr, Block.lineUpdate_sdo, Block.lineUpdate_fStart,
    Block.lineUpdate_fStop, ht, hhigh, hx]
  simp [startCondition, stopCondition]

end Sys2Proof.Machine
end

section
/-! SUPPORT. A TRANSFER entered with the clock held low, on a quiet bus (R95 to R97). -/

namespace Sys2Proof.Machine

/-! ## Micro-steps in a row -/

/-- The sequencer alone leads from `b` to `c`, performing the labels `ls`. -/
inductive Block.Performs (e : Env) : Block → List Label → Block → Prop
  | refl (b : Block) : Performs e b [] b
  | step {b b' c : Block} {ls : List Label} :
    b.seqStep e = some b' → Performs e b' ls c → Performs e b (b.upc :: ls) c

theorem Block.Performs.trans {e : Env} {b c d : Block} {ls ls' : List Label} (h : b.Performs e ls c)
    (h' : c.Performs e ls' d) : b.Performs e (ls ++ ls') d := by
  induction h with
  | refl b => exact h'
  | step hs _ ih => exact .step hs (ih h')

/-- Micro-steps in a row are a quiet run of that many steps (R166). -/
theorem Block.Performs.runQuiet {b c : Block} {ls : List Label} {s : State} (h : b.Performs s.env ls c)
    (hr : s.rst = false) :
    State.runQuiet ls.length { s with blk := b } = { s with blk := c } ∧
      performed (State.trailQuiet ls.length { s with blk := b }) = ls := by
  induction h with
  | refl b => exact ⟨rfl, rfl⟩
  | @step b b' c ls hs _ ih =>
    have hq : State.seqStep { s with blk := b } = some { s with blk := b' } := by
      rw [State.seqStep_of_released (s := { s with blk := b }) hr, hs]
      rfl
    simp only [List.length_cons, State.runQuiet, State.trailQuiet, hq]
    exact ⟨ih.1, congrArg (b.upc :: ·) ih.2⟩

/-! ## One pulse -/

/-- The level of the data line while the latch puts `bit` on it (R42, R43). -/
def Block.dataLevel (e : Env) (b : Block) (bit : Level) : Level :=
  e.sda && (!b.dirSda || (b.outSda && bit))

theorem Block.sdaLine_eq_dataLevel (e : Env) (b : Block) : b.sdaLine e = b.dataLevel e b.sdo := by
  simp [Block.sdaLine, Block.mSda, Block.dataLevel, Bool.and_comm]

/-- `SR` after one pulse: bit 7 goes out to the data line, whose level comes in (R97). -/
def Block.recirculate (e : Env) (b : Block) (v : Byte) : Byte := shiftIn v (b.dataLevel e (v.getLsbD 7))

/-- The block at a label of TRANSFER with the clock held low: the latch follows the byte in `SR`. -/
def Block.betweenPulses (b : Block) (l : TransferLabel) (v : Byte) (c : Count) (ovf : Bool) : Block :=
  { b with sr := v, sdo := v.getLsbD 7, cnt := c, fOvf := ovf, upc := .transfer l }

/-- The block at a label of TRANSFER inside a pulse: the clock is released, and the latch still holds `bit`. -/
def Block.inPulse (b : Block) (l : TransferLabel) (v : Byte) (bit : Level) (c : Count) : Block :=
  { b with outScl := !b.outScl, sr := v, sdo := bit, cnt := c, fOvf := false, upc := .transfer l }

/-- A block in a transfer that holds the clock low, on a bus that lets the clock go. -/
structure Block.Transferring (e : Env) (b : Block) : Prop where
  busy : b.busy = true
  control : b.control = Config.controlWord
  dirScl : b.dirScl = true
  outScl : b.outScl = false
  xfer : b.xfer = true
  scl : e.scl = true

section
variable {e : Env} {b : Block} {v : Byte} {n : Count} {bit ovf : Level}

/-- T2: the strobe releases the clock, and the line that follows it shifts the level of the data line in (R83). -/
theorem Block.Transferring.seqStep_t2 (h : b.Transferring e) (hn : n ≠ 15#4) :
    (b.betweenPulses .t2 v n false).seqStep e =
      some (b.inPulse .t3 (b.recirculate e v) (v.getLsbD 7) (n + 1#4)) := by
  rw [Block.seqStep_of_writes (b := b.betweenPulses .t2 v n false) (m := transferProgram .t2) h.busy rfl rfl nofun]
  have hlow : (b.betweenPulses .t2 v n false).sclLine e = false := by
    simp [Block.betweenPulses, Block.sclLine, Block.mScl, h.dirScl, h.outScl]
  have hwrites : (transferProgram .t2).writes (b.betweenPulses .t2 v n false) =
      b.inPulse .t3 v (v.getLsbD 7) (n + 1#4) := by
    simp [transferProgram, Block.strobeTc, Block.countEdge, Block.goto, Block.betweenPulses, Block.inPulse, hn]
  have hhigh : (b.inPulse .t3 v (v.getLsbD 7) (n + 1#4)).sclLine e = true := by
    simp [Block.inPulse, Block.sclLine, Block.mScl, h.outScl, h.scl]
  have htwm : (b.inPulse .t3 v (v.getLsbD 7) (n + 1#4)).twm = true := Block.twm_of_control h.control
  rw [hwrites, hlow, Block.lineUpdate_of_rise htwm hhigh h.xfer, Block.sdaLine_eq_dataLevel]
  rfl

/-- T3 and T4: with the clock line high a WAIT and a DELAY change `UPC` alone (R90, R91). -/
theorem Block.Transferring.seqStep_high {l l' : TransferLabel} (h : b.Transferring e)
    (hm : (transferProgram l).op = .waitScl ∨ ∃ d, (transferProgram l).op = .delay d)
    (hl : (transferProgram l).next = .transfer l') :
    (b.inPulse l v bit n).seqStep e = some (b.inPulse l' v bit n) := by
  have hhigh (l : TransferLabel) : (b.inPulse l v bit n).sclLine e = true := by
    simp [Block.inPulse, Block.sclLine, Block.mScl, h.outScl, h.scl]
  have hup : (transferProgram l).op.updatesLines = true := by
    rcases hm with hm | ⟨d, hm⟩ <;> rw [hm] <;> rfl
  have hwrites : (transferProgram l).writes (b.inPulse l v bit n) = b.inPulse l' v bit n := by
    rcases hm with hm | ⟨d, hm⟩ <;> simp [MicroStep.writes, hm, hl, Block.goto, Block.inPulse]
  rw [Block.seqStep_of_writes (b := b.inPulse l v bit n) (m := transferProgram l) h.busy rfl hup fun _ => hhigh l,
    hwrites]
  exact congrArg some (Block.lineUpdate_idle (.inl (hhigh l')))

/-- T5: the strobe pulls the clock low, the latch takes the next bit, and the wrap from 15 is the last edge (R89). -/
theorem Block.Transferring.seqStep_t5 (h : b.Transferring e) :
    (b.inPulse .t5 v bit n).seqStep e = some (b.betweenPulses .t6 v (n + 1#4) (n == 15#4)) := by
  rw [Block.seqStep_of_low (b := b.inPulse .t5 v bit n) (m := transferProgram .t5) h.busy rfl rfl nofun h.control
    h.dirScl (by simp [transferProgram, Block.inPulse, h.outScl])]
  simp [transferProgram, Block.strobeTc, Block.countEdge, Block.goto, Block.betweenPulses, Block.inPulse]

/-- One pulse, from an even count: one bit out, one level in, two edges (R95, R97). -/
theorem Block.Transferring.performs_pulse (h : b.Transferring e) (hn : n.getLsbD 0 = false) :
    (b.betweenPulses .t1 v n false).Performs e pulseLabels
      (b.betweenPulses (if n = 14#4 then .t7 else .t1) (b.recirculate e v) (n + 2#4) (n == 14#4)) := by
  have hcnt : n ≠ 15#4 ∧ (n + 1#4 + 1#4 = n + 2#4) ∧ ((n + 1#4 == 15#4) = (n == 14#4)) := by
    revert n; decide
  obtain ⟨h15, hadd, hwrap⟩ := hcnt
  refine .step (b' := b.betweenPulses .t2 v n false)
    (Block.seqStep_of_low (m := transferProgram .t1) h.busy rfl rfl nofun h.control h.dirScl h.outScl) ?_
  refine .step (h.seqStep_t2 h15) (.step (h.seqStep_high (.inl rfl) rfl) (.step (h.seqStep_high (.inr ⟨_, rfl⟩) rfl)
    (.step h.seqStep_t5 (.step ?_ (.refl _)))))
  rw [hadd, hwrap, Block.seqStep_of_low (b := b.betweenPulses .t6 _ _ _) (m := transferProgram .t6) h.busy rfl rfl
    nofun h.control h.dirScl h.outScl]
  by_cases h14 : n = 14#4 <;> simp [transferProgram, Block.goto, Block.betweenPulses, h14]

/-! ## All the pulses, and the end -/

/-- The pulses that are left, from the count that leaves `k + 1` of them (R96). -/
theorem Block.Transferring.performs_pulses (h : b.Transferring e) (k : Nat) (hk : k < 8) (v : Byte) :
    (b.betweenPulses .t1 v (BitVec.ofNat 4 (14 - 2 * k)) false).Performs e
      (List.replicate (k + 1) pulseLabels).flatten
      (b.betweenPulses .t7 ((b.recirculate e)^[k + 1] v) 0#4 true) := by
  induction k generalizing v with
  | zero => simpa using h.performs_pulse (v := v) (n := 14#4) rfl
  | succ k ih =>
    have hcnt : ∀ k : Fin 7, (BitVec.ofNat 4 (14 - 2 * (k.val + 1))).getLsbD 0 = false ∧
        BitVec.ofNat 4 (14 - 2 * (k.val + 1)) ≠ 14#4 ∧
        BitVec.ofNat 4 (14 - 2 * (k.val + 1)) + 2#4 = BitVec.ofNat 4 (14 - 2 * k.val) := by decide
    obtain ⟨heven, h14, hadd⟩ := hcnt ⟨k, by omega⟩
    have hpulse := h.performs_pulse (v := v) heven
    rw [if_neg h14, hadd, beq_false_of_ne h14] at hpulse
    rw [List.replicate_succ, List.flatten_cons, Function.iterate_succ_apply]
    exact hpulse.trans (ih (by omega) _)

/-- `SR` after `k` pulses: the first `k` bits of the byte, as the data line showed them, shifted in (R97). -/
theorem Block.recirculate_iterate (e : Env) (b : Block) (v : Byte) (k : Nat) (hk : k ≤ 8) :
    (b.recirculate e)^[k] v = shiftAll v (((bitsOf v).take k).map (b.dataLevel e)) := by
  induction k with
  | zero => rfl
  | succ k ih =>
    have hlen : (((bitsOf v).take k).map (b.dataLevel e)).length = k := by
      simp [bitsOf]; omega
    rw [Function.iterate_succ_apply', ih (by omega), Block.recirculate,
      getLsbD_shiftAll v (by omega), hlen, List.take_add_one, getElem?_bitsOf v (by omega), Option.toList_some,
      List.map_append, List.map_singleton, shiftAll_append_singleton]

/-- The block at T9 and T10, the byte captured in `CAP` (R95). -/
def Block.afterCapture (b : Block) (l : TransferLabel) (cap v : Byte) (c : Count) (ovf : Bool) : Block :=
  { b.betweenPulses l v c ovf with cap := cap, xfer := false }

/-- From T7: the byte shifted in goes to `CAP`, and the registers to their resting values (R95, R97). -/
theorem Block.Transferring.performs_closing (h : b.Transferring e) :
    (b.betweenPulses .t7 v n ovf).Performs e closingLabels { b with
      sr := Config.idleHigh, sdo := true, dirSda := true, cnt := n, fOvf := ovf, xfer := false, cap := v
      upc := b.tret.toLabel } := by
  have h7 : (b.betweenPulses .t7 v n ovf).seqStep e = some (b.betweenPulses .t8 v n ovf) :=
    Block.seqStep_of_low (m := transferProgram .t7) h.busy rfl rfl nofun h.control h.dirScl h.outScl
  have h8 : (b.betweenPulses .t8 v n ovf).seqStep e = some (b.afterCapture .t9 v v n ovf) :=
    Block.seqStep_of_low (m := transferProgram .t8) h.busy rfl rfl nofun h.control h.dirScl h.outScl
  have h9 : (b.afterCapture .t9 v v n ovf).seqStep e = some (b.afterCapture .t10 v Config.idleHigh n ovf) := by
    rw [Block.seqStep_of_low (b := b.afterCapture .t9 v v n ovf) (m := transferProgram .t9) h.busy rfl rfl nofun
      h.control h.dirScl h.outScl]
    simp [transferProgram, Block.loadSr, Block.goto, Block.afterCapture, Block.betweenPulses]
  have h10 := Block.seqStep_of_low (e := e) (b := b.afterCapture .t10 v Config.idleHigh n ovf)
    (m := transferProgram .t10) h.busy rfl rfl nofun h.control h.dirScl h.outScl
  have hidle : true = Config.idleHigh.getLsbD 7 := by decide
  rw [hidle]
  exact .step h7 (.step h8 (.step h9 (.step h10 (.refl _))))

/-- A whole TRANSFER of `k + 1` pulses, the flags cleared at T0 (R95). -/
theorem Block.performs_transfer (hb : b.busy = true) (hu : b.upc = .transfer .t0)
    (hc : b.control = Config.controlWord) (hd : b.dirScl = true) (ho : b.outScl = false) (he : e.scl = true)
    {k : Nat} (hk : k < 8) (hw : b.tw.getLsbD 7 = true ∧ b.tw.getLsbD 6 = true ∧ b.tw.getLsbD 5 = true)
    (hn : b.tw.extractLsb' 0 4 = BitVec.ofNat 4 (14 - 2 * k)) :
    b.Performs e (transferLabels (k + 1)) { b with
      sr := Config.idleHigh, sdo := true, dirSda := true, cnt := 0#4
      fStart := false, fOvf := true, fStop := false, xfer := false
      cap := shiftAll b.sr (((bitsOf b.sr).take (k + 1)).map (b.dataLevel e)), upc := b.tret.toLabel } := by
  have h : Block.Transferring e { b with fStart := false, fStop := false, xfer := true } :=
    ⟨hb, hc, hd, ho, rfl, he⟩
  have hpulses := h.performs_pulses k hk b.sr
  rw [Block.recirculate_iterate _ _ _ _ hk] at hpulses
  rw [transferLabels, ← hu, pulsesLabels]
  refine .step (b' := Block.betweenPulses { b with fStart := false, fStop := false, xfer := true } .t1 b.sr
    (BitVec.ofNat 4 (14 - 2 * k)) false) ?_ (hpulses.trans h.performs_closing)
  rw [Block.seqStep_of_low (m := transferProgram .t0) hb (by rw [hu]; rfl) rfl nofun hc hd ho]
  simp [transferProgram, Block.beginTransfer, Block.writeStatus, Block.goto, Block.betweenPulses, hw, hn]

end

theorem length_transferLabels (n : Nat) : (transferLabels n).length = 5 + 6 * n := by
  induction n with
  | zero => rfl
  | succ n ih =>
    simp only [transferLabels, List.length_cons, pulsesLabels_succ, List.length_append, pulseLabels] at ih ⊢
    simp only [List.length_nil]
    omega

theorem length_filter_t1_transferLabels (n : Nat) :
    ((transferLabels n).filter (· == .transfer .t1)).length = n := by
  have hpulses : ((pulsesLabels n).filter (· == .transfer .t1)).length = n := by
    induction n with
    | zero => rfl
    | succ n ih =>
      rw [pulsesLabels_succ, List.filter_append, List.length_append, ih]
      exact Nat.add_comm 1 n
  exact hpulses

/-- Settles O38: the pulses by induction on their number, each a round of T1 to T6. -/
theorem transferMakesItsPulses : Obligations.TransferMakesItsPulses := by
  intro s n hr hb hu hc hd ho he hw level
  obtain ⟨k, rfl, hk, hclear, hcnt, hcap⟩ : ∃ k, n = k + 1 ∧ k < 8 ∧
      (s.blk.tw.getLsbD 7 = true ∧ s.blk.tw.getLsbD 6 = true ∧ s.blk.tw.getLsbD 5 = true) ∧
      s.blk.tw.extractLsb' 0 4 = BitVec.ofNat 4 (14 - 2 * k) ∧
      shiftAll s.blk.sr (((bitsOf s.blk.sr).take (k + 1)).map level) =
        if n = 8 then packByte ((bitsOf s.blk.sr).map level)
        else s.blk.sr.extractLsb' 0 7 ++ BitVec.ofBool (level (s.blk.sr.getLsbD 7)) := by
    rcases hw with ⟨hw, rfl⟩ | ⟨hw, rfl⟩
    · exact ⟨7, rfl, by decide, by rw [hw]; decide, by rw [hw]; decide, shiftAll_of_length rfl⟩
    · exact ⟨0, rfl, by decide, by rw [hw]; decide, by rw [hw]; decide, rfl⟩
  have hrun := (Block.performs_transfer hb hu hc hd ho he hk hclear hcnt).runQuiet hr
  rw [length_transferLabels] at hrun
  rw [← hcap]
  exact ⟨hrun.1, (congrArg (fun ls => (ls.filter (· == .transfer .t1)).length) hrun.2).trans
    (length_filter_t1_transferLabels _)⟩

end Sys2Proof.Machine
end

section
/-! SUPPORT. A TRANSFER, or a READ, entered with the clock released: on every bus without reset it ends blocked at T3
(R98, R157). -/

namespace Sys2Proof.Machine

/-- The micro-steps that a READ issued with the clock released has still to make up to T3 (R98). -/
def Label.stepsToT3 : Label → Nat
  | .readAck .a0 | .readNack .n0 => 5
  | .readAck .a1 | .readNack .n1 => 4
  | .transfer .t0 => 3
  | .transfer .t1 => 2
  | .transfer .t2 => 1
  | _ => 0

/-- The block at T3 that waits for the clock it holds low itself is the only one of a doomed command that is blocked
(R90, R98). -/
theorem Block.Doomed.seqStep_eq_none_iff {e : Env} {b : Block} (h : b.Doomed) (hd : b.dirScl = true)
    (hb : b.busy = true) : b.seqStep e = none ↔ b.upc = .transfer .t3 := by
  have hidle : b.upc ≠ .idle := by
    intro hu
    simp [Block.Doomed, hu] at h
  obtain ⟨m, hm⟩ := Option.ne_none_iff_exists'.mp (mt microcode_eq_none.mp hidle)
  have hstep : b.seqStep e = m.op.perform e m.next b := by simp [Block.seqStep, hb, hm]
  rw [hstep, MicroOp.perform_eq_none, microcode_waitScl hm]
  constructor
  · rintro ⟨hu | hu | hu, -⟩
    · simp [Block.Doomed, hu] at h
    · simp [Block.Doomed, hu] at h
    · exact hu
  · intro hu
    have ho : b.outScl = false := by simpa [Block.Doomed, hu] using h
    exact ⟨.inr (.inr hu), by simp [Block.sclLine_eq_outScl hd, ho]⟩

/-- Every micro-step of a doomed command brings it one nearer to T3. -/
theorem Block.Doomed.stepsToT3_seqStep {e : Env} {b b' : Block} (h : b.Doomed) (hd : b.dirScl = true)
    (hs : b.seqStep e = some b') : b.upc.stepsToT3 = b'.upc.stepsToT3 + 1 := by
  have ht : b.upc ≠ .transfer .t3 := fun hu => by
    have hnone := (h.seqStep_eq_none_iff (e := e) hd (Block.seqStep_some hs).1).mpr hu
    exact absurd (hnone.symm.trans hs) (by simp)
  obtain ⟨m, hm, ha⟩ := Block.seqStep_agrees hs
  rw [ha.upc]
  simp only [Block.Doomed] at h
  generalize b.upc = l at hm h ht
  cases l, m, hm using microcode_cases with
  | init l => exact h.elim
  | start l => exact h.elim
  | stop l => exact h.elim
  | write l => exact h.elim
  | readAck l => cases l <;> simp_all [Label.stepsToT3, readAckProgram]
  | readNack l => cases l <;> simp_all [Label.stepsToT3, readNackProgram]
  | transfer l => cases l <;> simp_all [Label.stepsToT3, transferProgram]

/-- A machine on the way of a command issued with the clock released (R98, R157). -/
structure State.Hanging (s : State) : Prop where
  rst : s.rst = false
  busy : s.blk.busy = true
  dirScl : s.blk.dirScl = true
  doomed : s.blk.Doomed

theorem State.Hanging.seqStep {s t : State} (h : s.Hanging) (ht : s.seqStep = some t) : t.Hanging := by
  obtain ⟨-, b, hb, rfl⟩ := State.seqStep_some ht
  obtain ⟨hdoomed, hdir, hbusy⟩ := h.doomed.seqStep h.dirScl hb
  exact ⟨h.rst, hbusy, hdir, hdoomed⟩

theorem State.Hanging.envStep {s : State} (h : s.Hanging) (l : Line) : (s.envStep l).Hanging :=
  ⟨h.rst, by simpa using h.busy, by simpa using h.dirScl, (Block.lineUpdate_agrees _ _ _ _).doomed.mpr h.doomed⟩

theorem State.Hanging.withAgenda {s : State} (h : s.Hanging) (a : List Move) : State.Hanging { s with agenda := a } :=
  ⟨h.rst, h.busy, h.dirScl, h.doomed⟩

theorem State.Hanging.seqStep_eq_none_iff {s : State} (h : s.Hanging) :
    s.seqStep = none ↔ s.blk.upc = .transfer .t3 := by
  rw [State.seqStep_of_released h.rst, Option.map_eq_none_iff]
  exact h.doomed.seqStep_eq_none_iff h.dirScl h.busy

theorem State.Hanging.blocked {s : State} (h : s.Hanging) (hu : s.blk.upc = .transfer .t3) : s.blocked = true := by
  simp [State.blocked, h.busy, h.rst, h.seqStep_eq_none_iff.mpr hu]

/-- The sequencer alone brings it to T3. -/
theorem State.Hanging.runQuiet_upc {s : State} (h : s.Hanging) (n : Nat) (hn : s.blk.upc.stepsToT3 ≤ n) :
    (s.runQuiet n).blk.upc = .transfer .t3 := by
  induction n generalizing s with
  | zero =>
    cases hq : s.seqStep with
    | none => exact h.seqStep_eq_none_iff.mp hq
    | some t =>
      obtain ⟨-, b, hb, -⟩ := State.seqStep_some hq
      have hsteps := h.doomed.stepsToT3_seqStep h.dirScl hb
      omega
  | succ n ih =>
    cases hq : s.seqStep with
    | none => simpa [State.runQuiet, hq] using h.seqStep_eq_none_iff.mp hq
    | some t =>
      have ht := h.seqStep hq
      obtain ⟨-, b, hb, rfl⟩ := State.seqStep_some hq
      have hsteps := h.doomed.stepsToT3_seqStep h.dirScl hb
      simp only [State.runQuiet, hq]
      exact ih ht (by change b.upc.stepsToT3 ≤ n; omega)

theorem Label.stepsToT3_le (l : Label) : l.stepsToT3 ≤ maxMicroSteps := by
  unfold Label.stepsToT3
  split <;> decide

section
variable {P : State → Prop} (hagenda : ∀ u a, P u → P { u with agenda := a })
  (hmicro : ∀ u v, u.Hanging → P u → u.seqStep = some v → P v) (henv : ∀ u l, P u → P (u.envStep l))
include hagenda hmicro henv

/-- What the micro-steps and the environment keep of a hanging machine, its run on a bus keeps. -/
theorem State.BusRun.keeps_of_hanging {p : State → Move → Bool} {s t : State} {es : List Event}
    (h : BusRun p s es t) (hs : s.Hanging) (hp : P s) : t.Hanging ∧ P t :=
  h.keeps (P := fun u => u.Hanging ∧ P u) (fun u a hu => ⟨hu.1.withAgenda a, hagenda u a hu.2⟩)
    (fun u v hu hv => ⟨hu.1.seqStep hv, hmicro u v hu.1 hu.2 hv⟩)
    (fun u l hu => ⟨hu.1.envStep l, henv u l hu.2⟩) ⟨hs, hp⟩

/-- Whatever moves are planned but reset, the run ends at T3, and keeps what the micro-steps and the environment
keep (R98, R157). -/
theorem State.Hanging.runAgenda {s : State} {ms : List Move} (h : s.Hanging) (hno : .assertReset ∉ ms) (hp : P s) :
    (State.runAgenda ms s).Hanging ∧ (State.runAgenda ms s).blk.upc = .transfer .t3 ∧ P (State.runAgenda ms s) := by
  obtain ⟨es, -, hrun, hbus⟩ := State.busRun_agenda (p := fun _ _ => true) h.rst hno
    (State.agendaMeets_of_forall (fun _ _ => rfl) _ _)
  obtain ⟨hmid, hpmid⟩ := hbus.keeps_of_hanging hagenda hmicro henv h hp
  obtain ⟨hend, hpend⟩ :=
    (State.busRun_trailQuiet (fun _ _ => true) maxMicroSteps _).keeps_of_hanging hagenda hmicro henv hmid hpmid
  rw [hrun]
  exact ⟨hend, hmid.runQuiet_upc _ (Label.stepsToT3_le _), hpend⟩

end

theorem State.Hanging.runAgenda_at_t3 {s : State} {ms : List Move} (h : s.Hanging) (hno : .assertReset ∉ ms) :
    (State.runAgenda ms s).Hanging ∧ (State.runAgenda ms s).blk.upc = .transfer .t3 := by
  obtain ⟨hend, hupc, -⟩ := State.Hanging.runAgenda (P := fun _ => True) (fun _ _ _ => trivial)
    (fun _ _ _ _ _ => trivial) (fun _ _ _ => trivial) h hno trivial
  exact ⟨hend, hupc⟩

theorem State.Hanging.outScl_at_t3 {s : State} (h : s.Hanging) (hu : s.blk.upc = .transfer .t3) :
    s.blk.outScl = false := by
  simpa [Block.Doomed, hu] using h.doomed

/-- The counter of a transfer called with the word `w`, up to its first edge (R88, R89). -/
def Block.FirstEdge (w : Byte) (b : Block) : Prop :=
  match b.upc with
  | .transfer .t0 => b.tw = w
  | .transfer .t1 | .transfer .t2 => b.cnt = w.extractLsb' 0 4
  | .transfer .t3 => b.cnt = w.extractLsb' 0 4 + 1#4
  | _ => False

theorem Block.AgreesButLines.firstEdge {w : Byte} {b c : Block} (h : b.AgreesButLines c) :
    c.FirstEdge w ↔ b.FirstEdge w := by
  simp only [Block.FirstEdge, h.upc, h.tw, h.cnt]

theorem Block.FirstEdge.seqStep {w : Byte} {e : Env} {b b' : Block} (h : b.FirstEdge w) (hs : b.seqStep e = some b')
    (ht : b.upc ≠ .transfer .t3) : b'.FirstEdge w := by
  obtain ⟨m, hm, ha⟩ := Block.seqStep_agrees hs
  rw [ha.firstEdge]
  simp only [Block.FirstEdge] at h
  generalize hu : b.upc = l at hm h ht
  cases l, m, hm using microcode_cases with
  | transfer l => cases l <;> simp_all [Block.FirstEdge, transferProgram]
  | _ => exact h.elim

/-- Settles O39: T2 pulls the clock low at the first edge, and T3 waits for the block itself. -/
theorem transferEnteredWithTheClockReleasedHangs : Obligations.TransferEnteredWithTheClockReleasedHangs := by
  intro s hr hb hu hd ho hno
  have h : s.Hanging := ⟨hr, hb, hd, by simpa [Block.Doomed, hu] using ho⟩
  have hmicro : ∀ u v : State, u.Hanging → u.blk.FirstEdge s.blk.tw → u.seqStep = some v →
      v.blk.FirstEdge s.blk.tw := by
    intro u v hu hp hv
    have ht : u.blk.upc ≠ .transfer .t3 := fun hu3 => by simp [hu.seqStep_eq_none_iff.mpr hu3] at hv
    obtain ⟨-, b, hb, rfl⟩ := State.seqStep_some hv
    exact hp.seqStep hb ht
  obtain ⟨hend, hupc, hedge⟩ : s.run.Hanging ∧ s.run.blk.upc = .transfer .t3 ∧ s.run.blk.FirstEdge s.blk.tw :=
    State.Hanging.runAgenda (P := fun t => t.blk.FirstEdge s.blk.tw) (fun _ _ hp => hp) hmicro
      (fun u l hp => (Block.lineUpdate_agrees _ _ _ _).firstEdge.mpr hp) h (State.assertReset_not_mem hno)
      (by simp [Block.FirstEdge, hu])
  exact ⟨hend.blocked hupc, hupc, hend.outScl_at_t3 hupc, by simpa only [Block.FirstEdge, hupc] using hedge⟩

/-- A command boundary is a state of the invariant (R32). -/
theorem State.inv_of_atBoundary {s : State} (h : s.atBoundary = true) : s.inv = true := by
  simp only [State.atBoundary, Block.atBoundary, Bool.and_eq_true, Bool.not_eq_true', beq_iff_eq] at h
  obtain ⟨hr, ⟨⟨⟨⟨hb, hc⟩, hset⟩, hd⟩, hx⟩, hu⟩ := h
  refine State.inv_iff.mpr ⟨Block.inv_iff.mpr (.inr ⟨⟨by simp [hb, hu], by simp [hx, hu, Label.shifting], hc, hd,
    by simpa [Block.shape, hu] using hset⟩, .inr ?_⟩), by simp [hr]⟩
  simp only [Block.settled, Bool.and_eq_true, beq_iff_eq] at hset
  obtain ⟨⟨-, hsr⟩, hsdo⟩ := hset
  rw [hsr, hsdo]
  rfl

/-- At a T3 that holds the clock low itself the transfer is the first of a READ, at its first edge (R98, R157). -/
theorem Block.Shaped.first_of_read {b : Block} (h : b.Shaped) (hu : b.upc = .transfer .t3) (ho : b.outScl = false) :
    b.dirSda = false ∧ b.cnt = 1#4 ∧ b.xfer = true := by
  have hs := h.shape
  simp only [Block.shape, hu, Block.transferSetUp, Bool.and_eq_true, Bool.or_eq_true, beq_iff_eq, ho,
    Bool.false_eq_true, false_or] at hs
  obtain ⟨⟨⟨⟨-, hdir⟩, -⟩, -⟩, hread, hcnt⟩ := hs
  refine ⟨?_, hcnt, by simp [h.xfer, hu, Label.shifting]⟩
  rw [hdir]
  cases hr : b.tret <;> simp_all [RetLabel.ofRead, RetLabel.drivesData]

/-- No micro-step of a hanging machine answers. -/
theorem State.Hanging.rspValid_seqStep {s t : State} (h : s.Hanging) (ht : s.seqStep = some t) :
    t.blk.rspValid = s.blk.rspValid := by
  have hbusy := (h.seqStep ht).busy
  obtain ⟨-, b, hb, rfl⟩ := State.seqStep_some ht
  obtain ⟨m, hm, ha⟩ := Block.seqStep_agrees hb
  by_contra hne
  have hdone := (MicroStep.writes_writtenFrom hm).response (.inl (ha.rspValid ▸ hne))
  exact absurd ((ha.busy.trans hdone).symm.trans hbusy) (by decide)

/-- Settles O40: the READ runs to the T3 that waits for the block itself, and every further run stays there. -/
theorem readWithoutStartHangs : Obligations.ReadWithoutStartHangs := by
  intro i d s hi hat ho hno
  have hinv := State.inv_of_atBoundary hat
  simp only [State.atBoundary, Block.atBoundary, Bool.and_eq_true, Bool.not_eq_true', beq_iff_eq] at hat
  obtain ⟨hr, ⟨⟨⟨⟨hb, hc⟩, -⟩, hd⟩, -⟩, -⟩ := hat
  have hready : s.ready = true := State.ready_iff.mpr ⟨hr, hb⟩
  have he := exec_of_ready (i := i) hready (.inr hc)
  have h : (s.accepted i).Hanging := ⟨hr, rfl, hd, by
    rcases hi with rfl | rfl
    · exact ho
    · exact ho⟩
  obtain ⟨hend, hupc, hrsp⟩ : (s.accepted i).run.Hanging ∧ (s.accepted i).run.blk.upc = .transfer .t3 ∧
      (s.accepted i).run.blk.rspValid = false :=
    State.Hanging.runAgenda (P := fun t => t.blk.rspValid = false) (fun _ _ hp => hp)
      (fun u v hu hp hv => (hu.rspValid_seqStep hv).trans hp) (fun u l hp => by simpa using hp) h
      (State.assertReset_not_mem hno) rfl
  have hlow := hend.outScl_at_t3 hupc
  have hshaped : (s.accepted i).run.blk.Shaped :=
    ((Block.inv_iff.mp (State.inv_iff.mp (State.inv_exec hinv he)).1).resolve_left fun hun => by
      rcases hun.upc with hu | ⟨hu, -⟩ <;> simp [hu] at hupc).1
  obtain ⟨hdir, hcnt, hx⟩ := hshaped.first_of_read hupc hlow
  refine ⟨_, he, hend.blocked hupc, hupc, hlow, hdir, hcnt, hx, hrsp, fun ms hms => ?_⟩
  obtain ⟨hend', hupc'⟩ := (hend.withAgenda ms).runAgenda_at_t3 hms
  exact ⟨hupc', hend'.blocked hupc'⟩

end Sys2Proof.Machine
end

section
/-! SUPPORT. The least time of a completed command (R91, R123, R160). -/

namespace Sys2Proof.Machine

/-- A READ that completes was issued with the clock held low (R157). -/
theorem exec_read_outScl {i : Instr} {s t : State} (hi : i.opcode = 4#3 ∨ i.opcode = 5#3) (h : s.inv = true)
    (hr : s.ready = true) (hno : s.noReset = true) (he : exec i s = .next t) (hdone : t.completed = true) :
    s.blk.outScl = false := by
  obtain ⟨hrst, hb⟩ := State.ready_iff.mp hr
  rcases exec_next he with ⟨hn, -⟩ | ⟨-, hc, rfl⟩
  · exact absurd (hr.symm.trans hn) (by decide)
  have hctl : s.blk.control = Config.controlWord :=
    hc.resolve_left fun h0 => by rcases hi with hi | hi <;> simp [h0] at hi
  by_contra ho
  have hhang : (s.accepted i).Hanging := ⟨hrst, rfl,
    (Block.shaped_of_control (State.inv_iff.mp h).1 hctl).1.dirScl,
    by cases i <;> simp_all [Instr.opcode, Block.Doomed, firstLabel]⟩
  have hbusy := (hhang.runAgenda_at_t3 (State.assertReset_not_mem hno)).1.busy
  simp only [State.completed, State.run, State.accepted_parts, hbusy, Bool.not_true, Bool.false_and,
    Bool.false_eq_true] at hdone

/-- A completed command has performed the labels of its program, whatever the bus (R167). -/
theorem performed_of_completed {i : Instr} {s t : State} (h : s.inv = true) (hr : s.ready = true)
    (hno : s.noReset = true) (he : exec i s = .next t) (hdone : t.completed = true) :
    performed (s.accepted i).trail = labelsFrom (firstLabel i) (firstLabel i).program := by
  have hread := fun hi => exec_read_outScl (i := i) hi h hr hno he hdone
  rcases exec_next he with ⟨hn, -⟩ | ⟨-, hc, rfl⟩
  · exact absurd (hr.symm.trans hn) (by decide)
  have hbus := State.busRun_trail (p := fun _ _ => true) (s := s.accepted i) (State.ready_iff.mp hr).1 hno
    (State.agendaMeets_of_forall (fun _ _ => rfl) _ _)
  have hend := (State.completing_accepted h hr hc hread).run hbus
  have hb : (s.accepted i).run.blk.busy = false := by
    simp only [State.completed, Bool.and_eq_true, Bool.not_eq_true'] at hdone
    exact hdone.1
  simpa [Block.ahead_of_not_busy hend.inv hb] using hend.labels

/-- The least time of some delays, by how many there are of each (R91). -/
theorem sum_duration (p : Params) (ds : List Delay) :
    (ds.map p.duration).sum = ds.count .tLow * p.tLow + ds.count .tHigh * p.tHigh := by
  induction ds with
  | nil => simp
  | cons d ds ih => cases d <;> simp [ih, Params.duration] <;> ring

/-- The least time of a completed command, by the delays of its program (R160). -/
theorem leastTime_of_completed {p : Params} {i : Instr} {s t : State} {low high : Nat} (h : s.inv = true)
    (hr : s.ready = true) (hno : s.noReset = true) (he : exec i s = .next t) (hdone : t.completed = true)
    (hlow : ((labelsFrom (firstLabel i) (firstLabel i).program).filterMap delayOf).count .tLow = low)
    (hhigh : ((labelsFrom (firstLabel i) (firstLabel i).program).filterMap delayOf).count .tHigh = high) :
    leastTime p (s.accepted i).trail = low * p.tLow + high * p.tHigh := by
  rw [leastTime, delaysOf, performed_of_completed h hr hno he hdone, sum_duration, hlow, hhigh]

/-- Settles O49: the delays are those of the command's program, counted. -/
theorem completedCommandsTakeTheirLeastTime : Obligations.CompletedCommandsTakeTheirLeastTime := by
  intro p i s t h hr hno he hdone
  cases i with
  | init d => exact (leastTime_of_completed (low := 0) (high := 0) h hr hno he hdone rfl rfl).trans (by simp)
  | start d => exact (leastTime_of_completed (low := 1) (high := 1) h hr hno he hdone rfl rfl).trans (by simp)
  | stop d => exact (leastTime_of_completed (low := 1) (high := 1) h hr hno he hdone rfl rfl).trans (by simp)
  | write d => exact leastTime_of_completed h hr hno he hdone rfl rfl
  | readAck d => exact leastTime_of_completed h hr hno he hdone rfl rfl
  | readNack d => exact leastTime_of_completed h hr hno he hdone rfl rfl

end Sys2Proof.Machine
end

section
/-! SUPPORT. The line update and the micro-operations, one by one (R84 to R90, R94). -/

namespace Sys2Proof.Machine

/-! ## The line update and STATUS -/

/-- Settles O10: each clause is the lemma about its register. -/
theorem lineUpdateFollowsTheLines : Obligations.LineUpdateFollowsTheLines := by
  intro e scl0 sda0 b b'
  refine ⟨fun hc => Block.lineUpdate_off (by simp [Block.twm, hc]), fun hc => ?_, Block.lineUpdate_eq e scl0 sda0 b⟩
  have ht : b.twm = true := by simp [Block.twm, hc]
  refine ⟨fun h0 h1 hx => ?_, fun h => ?_, fun hlow => ?_, fun hhigh => ?_, ?_, ?_⟩
  · simp [b', Block.lineUpdate_sr, ht, h0, h1, hx, shiftIn]
  · exact Block.lineUpdate_sr_of_no_rise fun ⟨h0, h1, hx⟩ => by simp [h0, h1, hx] at h
  · simp only [b', Block.lineUpdate_of_low ht hlow]
  · simp [b', Block.lineUpdate_sdo, hhigh]
  · rw [Block.lineUpdate_fStart, ht, Bool.true_and, Bool.or_eq_true, startCondition_iff]
  · rw [Block.lineUpdate_fStop, ht, Bool.true_and, Bool.or_eq_true, stopCondition_iff]

theorem microcode_beginTransfer {l : Label} {m : MicroStep} (h : microcode l = some m) :
    m.op = .beginTransfer ↔ l = .transfer .t0 := by
  cases l, m, h using microcode_cases with
  | init l => cases l <;> simp [initProgram]
  | start l => cases l <;> simp [startProgram]
  | stop l => cases l <;> simp [stopProgram]
  | write l => cases l <;> simp [writeProgram]
  | readAck l => cases l <;> simp [readAckProgram]
  | readNack l => cases l <;> simp [readNackProgram]
  | transfer l => cases l <;> simp [transferProgram]

/-- Under the invariant the block is configured at every label but `IDLE` and I0 (R63). -/
theorem Block.shaped_of_upc {e : Env} {b : Block} (h : b.inv e = true) (hidle : b.upc ≠ .idle)
    (hi : b.upc ≠ .init .i0) : b.Shaped ∧ b.Latched e := by
  refine (Block.inv_iff.mp h).resolve_left fun hun => ?_
  rcases hun.upc with hu | ⟨hu, -⟩
  · exact hidle hu
  · exact hi hu

/-- Settles O13: the STATUS word of a transfer is the one its CALL has set up. -/
theorem statusWriteClearsAndLoads : Obligations.StatusWriteClearsAndLoads := by
  refine ⟨fun w b => ?_, fun l m => microcode_beginTransfer, fun e b hb hu => ?_, fun s h hu => ?_⟩
  · have hclear : ∀ flag bit : Bool, (flag && !bit) = if bit then false else flag := by decide
    simp only [Block.writeStatus, hclear]
  · exact Block.seqStep_of_writes (m := transferProgram .t0) hb (by rw [hu]; rfl) rfl nofun
  · obtain ⟨hsh, -⟩ := Block.shaped_of_upc (State.inv_iff.mp h).1 (by simp [hu]) (by simp [hu])
    have hs := hsh.shape
    simp only [Block.shape, hu, Block.transferSetUp, Bool.and_eq_true, beq_iff_eq] at hs
    obtain ⟨⟨⟨-, htw⟩, -⟩, -⟩ := hs
    rw [htw]
    split
    · exact .inl rfl
    · exact .inr rfl

/-! ## The labels a micro-step leads to -/

/-- But for T6 and T10 a label has one successor, whatever the registers (R80, R94). -/
theorem MicroStep.writes_upc_fixed {l : Label} {m : MicroStep} (hm : microcode l = some m)
    (h6 : l ≠ .transfer .t6) (h10 : l ≠ .transfer .t10) : ∃ l', ∀ b : Block, (m.writes b).upc = l' := by
  cases l, m, hm using microcode_cases with
  | init l => cases l <;> exact ⟨_, fun _ => rfl⟩
  | start l => cases l <;> exact ⟨_, fun _ => rfl⟩
  | stop l => cases l <;> exact ⟨_, fun _ => rfl⟩
  | write l => cases l <;> exact ⟨_, fun _ => rfl⟩
  | readAck l => cases l <;> exact ⟨_, fun _ => rfl⟩
  | readNack l => cases l <;> exact ⟨_, fun _ => rfl⟩
  | transfer l =>
    cases l with
    | t6 => exact absurd rfl h6
    | t10 => exact absurd rfl h10
    | _ => exact ⟨_, fun _ => rfl⟩

/-- Where the labels with few ways in are entered from: the three WAITs, the branch, and TRANSFER (R90, R93, R94). -/
structure Block.EnteredFrom (b : Block) (l' : Label) : Prop where
  s1 : l' = .start .s1 → b.upc = .start .s0
  p2 : l' = .stop .p2 → b.upc = .stop .p1
  t3 : l' = .transfer .t3 → b.upc = .transfer .t2
  t6 : l' = .transfer .t6 → b.upc = .transfer .t5
  t0 : l' = .transfer .t0 →
    b.upc = .write .w2 ∨ b.upc = .write .w4 ∨ b.upc = .readAck .a1 ∨ b.upc = .readAck .a3 ∨
      b.upc = .readNack .n1 ∨ b.upc = .readNack .n3

theorem Block.seqStep_enteredFrom {e : Env} {b b' : Block} (h : b.seqStep e = some b') : b.EnteredFrom b'.upc := by
  obtain ⟨m, hm, ha⟩ := Block.seqStep_agrees h
  rw [ha.upc]
  generalize hu : b.upc = l at hm
  cases l, m, hm using microcode_cases with
  | init l => cases l <;> constructor <;> simp [hu, initProgram]
  | start l => cases l <;> constructor <;> simp [hu, startProgram]
  | stop l => cases l <;> constructor <;> simp [hu, stopProgram]
  | write l => cases l <;> constructor <;> simp [hu, writeProgram]
  | readAck l => cases l <;> constructor <;> simp [hu, readAckProgram]
  | readNack l => cases l <;> constructor <;> simp [hu, readNackProgram]
  | transfer l =>
    cases l with
    | t6 => cases hf : b.fOvf <;> constructor <;> simp [hu, hf, transferProgram]
    | t10 => cases hr : b.tret <;> constructor <;> simp [hu, hr, transferProgram, RetLabel.toLabel]
    | _ => constructor <;> simp [hu, transferProgram]

/-- Settles O16: the branch and the return by their writes, the rest by the labels each label leads to. -/
theorem onlyT6BranchesOnData : Obligations.OnlyT6BranchesOnData := by
  refine ⟨fun e b hb hu => ⟨_, Block.seqStep_of_writes (m := transferProgram .t6) hb (by rw [hu]; rfl) rfl nofun,
    by simp [transferProgram]⟩, fun e b b' h hu => ?_, fun e f b b' c c' h h' huc h6 h10 => ?_, fun e b b' h => ?_⟩
  · obtain ⟨m, hm, ha⟩ := Block.seqStep_agrees h
    obtain rfl : transferProgram .t10 = m := by simpa [hu, microcode] using hm
    exact ha.upc
  · obtain ⟨m, hm, ha⟩ := Block.seqStep_agrees h
    obtain ⟨m', hm', ha'⟩ := Block.seqStep_agrees h'
    obtain rfl : m = m' := Option.some.inj (hm.symm.trans ((congrArg microcode huc).trans hm'))
    obtain ⟨l', hl'⟩ := MicroStep.writes_upc_fixed hm h6 h10
    rw [ha.upc, ha'.upc, hl', hl']
  · have hfrom := Block.seqStep_enteredFrom h
    exact ⟨hfrom.t6, hfrom.t0⟩

/-! ## WAIT -/

/-- A WAIT is enabled exactly while the clock line reads high, and changes `UPC` alone (R90). -/
theorem State.seqStep_wait {s : State} {next : Label} (hr : s.rst = false) (hb : s.blk.busy = true)
    (hm : microcode s.blk.upc = some ⟨.waitScl, next⟩) :
    s.seqStep = if s.sclLine then some { s with blk := { s.blk with upc := next } } else none := by
  have hstep : s.blk.seqStep s.env = MicroOp.waitScl.perform s.env next s.blk := by simp [Block.seqStep, hb, hm]
  rw [State.seqStep_of_released hr, hstep]
  cases hs : s.sclLine with
  | true =>
    rw [MicroOp.perform_waitScl hs]
    rfl
  | false =>
    rw [MicroOp.perform_eq_none.mpr ⟨rfl, hs⟩]
    rfl

/-- A step of the environment at a WAIT leaves the label, and enables it where the clock line then reads high (R90). -/
theorem State.seqStep_wait_envStep {s : State} {next : Label} (l : Line) (hr : s.rst = false) (hb : s.blk.busy = true)
    (hm : microcode s.blk.upc = some ⟨.waitScl, next⟩) :
    (s.envStep l).seqStep.isSome = s.blk.sclLine (s.env.flip l) := by
  have hline : (s.envStep l).sclLine = s.blk.sclLine (s.env.flip l) := Block.lineUpdate_sclLine _ _ _ _
  rw [State.seqStep_wait (s := s.envStep l) (next := next) hr (by simpa using hb) (by simpa using hm), hline]
  cases s.blk.sclLine (s.env.flip l) <;> rfl

/-- The micro-step before a WAIT releases the clock, that before T3 where the clock was held low (R85, R89, R90). -/
theorem Block.seqStep_mScl_before_wait {e : Env} {b b' : Block} (h : b.seqStep e = some b')
    (hu : b.upc = .start .s0 ∨ b.upc = .stop .p1 ∨ (b.upc = .transfer .t2 ∧ b.outScl = false)) :
    b'.mScl = true := by
  obtain ⟨m, hm, ha⟩ := Block.seqStep_agrees h
  have ho : b'.outScl = true := by
    rw [ha.outScl]
    rcases hu with hu | hu | ⟨hu, ho⟩
    · obtain rfl : startProgram .s0 = m := by simpa [hu, microcode] using hm
      rfl
    · obtain rfl : stopProgram .p1 = m := by simpa [hu, microcode] using hm
      rfl
    · obtain rfl : transferProgram .t2 = m := by simpa [hu, microcode] using hm
      simp [transferProgram, ho]
  simp [Block.mScl, ho]

/-- Settles O15: the clock line at a WAIT is moved by the environment alone. -/
theorem waitsEndOnlyWhenTheClockReadsHigh : Obligations.WaitsEndOnlyWhenTheClockReadsHigh := by
  refine ⟨fun s next hr hb hu => ?_, fun e b b' h => ?_⟩
  · have hm : microcode s.blk.upc = some ⟨.waitScl, next⟩ := by
      rcases hu with ⟨hu, rfl⟩ | ⟨hu, rfl⟩ | ⟨hu, rfl⟩ <;> rw [hu] <;> rfl
    have hwait := State.seqStep_wait hr hb hm
    refine ⟨fun hs => by simpa [hs] using hwait, fun hs => ?_⟩
    have hnone : s.seqStep = none := by simpa [hs] using hwait
    refine ⟨hnone, fun m hscl hreset => ?_, fun hscl => ?_⟩
    · rcases State.move_cases_of_released hr hreset with he | he | ⟨l, rfl, he⟩
      · rw [he]
        exact ⟨rfl, hnone⟩
      · exact absurd (hnone.symm.trans he) (by simp)
      · cases l with
        | scl => exact absurd rfl hscl
        | sda =>
          have hstay := State.seqStep_wait_envStep .sda hr hb hm
          have hlow : s.blk.sclLine (s.env.flip .sda) = false := hs
          rw [he]
          exact ⟨by simp, Option.not_isSome_iff_eq_none.mp (by simp [hstay, hlow])⟩
    · have he : s.env.scl = false := by simpa [State.sclLine, Block.sclLine, hscl] using hs
      have hmove : s.move (.environment .scl) = s.envStep .scl := if_neg (by simp [hr])
      rw [hmove, State.seqStep_wait_envStep .scl hr hb hm]
      simp [Block.sclLine, hscl, he]
  · have hfrom := Block.seqStep_enteredFrom h
    exact ⟨fun hu => ⟨hfrom.s1 hu, Block.seqStep_mScl_before_wait h (.inl (hfrom.s1 hu))⟩,
      fun hu => ⟨hfrom.p2 hu, Block.seqStep_mScl_before_wait h (.inr (.inl (hfrom.p2 hu)))⟩,
      fun hu => ⟨hfrom.t3 hu, fun ho => Block.seqStep_mScl_before_wait h (.inr (.inr ⟨hfrom.t3 hu, ho⟩))⟩⟩

/-! ## Writes of the latches, the direction and the shift register -/

/-- The step of a known micro-operation with a phase 2 (R81). -/
theorem Block.seqStep_eq {e : Env} {b b' : Block} {m : MicroStep} (h : b.seqStep e = some b')
    (hm : microcode b.upc = some m) (hl : m.op.updatesLines = true) :
    b' = (m.writes b).lineUpdate e (b.sclLine e) (b.sdaLine e) := by
  obtain ⟨m', hm', -, hb'⟩ := Block.seqStep_phases h
  obtain rfl := Option.some.inj (hm.symm.trans hm')
  rwa [hl, if_pos rfl] at hb'

/-- A latch that is written with the value it holds leaves everything but `UPC` (R85). -/
theorem Block.Latched.lineUpdate_goto {e : Env} {b : Block} (h : b.Latched e) (l : Label) :
    (b.goto l).lineUpdate e (b.sclLine e) (b.sdaLine e) = b.goto l :=
  Block.lineUpdate_idle (b := b.goto l) h

/-- Only START and STOP write `OUT.SDA`, and the other side of the data line is at rest there (R111, R112). -/
theorem Block.Shaped.rest_at_setOut_sda {b : Block} {m : MicroStep} {v : Level} (h : b.Shaped)
    (hm : microcode b.upc = some m) (hop : m.op = .setOut .sda v) :
    b.dirSda = true ∧ b.sr = Config.idleHigh ∧ b.sdo = true := by
  have hs := h.shape
  have hframing : b.op = 1#3 ∨ b.op = 2#3 := by
    generalize hu : b.upc = l at hm
    cases l, m, hm using microcode_cases with
    | init l => cases l <;> simp [initProgram] at hop
    | start l => exact .inl (by cases l <;> simp_all [Block.shape])
    | stop l => exact .inr (by cases l <;> simp_all [Block.shape])
    | write l => cases l <;> simp [writeProgram] at hop
    | readAck l => cases l <;> simp [readAckProgram] at hop
    | readNack l => cases l <;> simp [readNackProgram] at hop
    | transfer l => cases l <;> simp [transferProgram] at hop
  obtain ⟨hd, hsr, hsdo, -⟩ := h.rest_of_framing hframing
  exact ⟨hd, hsr, hsdo⟩

/-- Under the invariant a micro-step other than I0 finds the block configured. -/
theorem Block.shaped_of_seqStep {e : Env} {b b' : Block} {m : MicroStep} (h : b.inv e = true)
    (hs : b.seqStep e = some b') (hm : microcode b.upc = some m) (hop : m.op ≠ .configure) :
    b.Shaped ∧ b.Latched e :=
  ((Block.inv_cases h hs).resolve_left (mt (microcode_configure hm).mpr hop)).2

/-- Settles O11: the writes, then the line update, which at these labels finds the latch of the data line at rest. -/
theorem outputLatchAndDirectionSteps : Obligations.OutputLatchAndDirectionSteps := by
  intro e b b' h
  refine ⟨fun v next hm => ?_, fun v next hm => ?_,
    fun v next hm => Block.seqStep_eq (m := ⟨.setDirSda v, next⟩) h hm rfl,
    fun next hm => Block.seqStep_eq (m := ⟨.restoreAndReturn, next⟩) h hm rfl,
    fun hd => by simp [Block.mSda, hd], fun hd => by simp [Block.mSda, hd],
    fun hd => (registersAreWrittenByTheirStepsAlone e b b' h).1 (.inl hd)⟩
  · have hb' := Block.seqStep_eq h hm rfl
    refine ⟨hb', fun hi => ?_⟩
    obtain ⟨hsh, hl⟩ := Block.shaped_of_seqStep hi h hm nofun
    obtain ⟨hd, hsr, hsdo⟩ := hsh.rest_at_setOut_sda hm rfl
    refine ⟨?_, fun hv => ?_⟩
    · have hsdo' : b'.sdo = true := by
        rw [hb']
        exact Block.lineUpdate_sdo_of_idleHigh hsr hsdo
      have hout : b'.dirSda = true ∧ b'.outSda = v := by
        rw [hb']
        simp [hd]
      simp [Block.sdaLine, Block.mSda, hout, hsdo']
    · subst hv
      exact hb'.trans (hl.lineUpdate_goto next)
  · have hb' := Block.seqStep_eq h hm rfl
    refine ⟨hb', fun hi => ?_⟩
    obtain ⟨hsh, hl⟩ := Block.shaped_of_seqStep hi h hm nofun
    refine ⟨?_, fun hv => ?_⟩
    · rw [hb', Block.lineUpdate_sclLine]
      simp [Block.sclLine, Block.mScl, hsh.dirScl]
    · subst hv
      exact hb'.trans (hl.lineUpdate_goto next)

/-- The writes of the four loads (R87, R120 to R122). -/
theorem Block.writes_of_load {b : Block} {v : Byte}
    (hu : (b.upc = .write .w1 ∧ v = b.arg) ∨ (b.upc = .readAck .a2 ∧ v = 0x00#8) ∨
      (b.upc = .readNack .n2 ∧ v = 0xFF#8) ∨ (b.upc = .transfer .t9 ∧ v = 0xFF#8)) :
    ∃ m, microcode b.upc = some m ∧ m.op.updatesLines = true ∧ m.op ≠ .waitScl ∧ m.writes b = { b with
      sr := v, rxb := if b.upc = .readAck .a2 ∨ b.upc = .readNack .n2 then b.cap else b.rxb, upc := m.next } := by
  rcases hu with ⟨hu, rfl⟩ | ⟨hu, rfl⟩ | ⟨hu, rfl⟩ | ⟨hu, rfl⟩
  · exact ⟨writeProgram .w1, by rw [hu]; rfl, rfl, nofun, by rw [hu]; rfl⟩
  · exact ⟨readAckProgram .a2, by rw [hu]; rfl, rfl, nofun, by rw [hu]; rfl⟩
  · exact ⟨readNackProgram .n2, by rw [hu]; rfl, rfl, nofun, by rw [hu]; rfl⟩
  · exact ⟨transferProgram .t9, by rw [hu]; rfl, rfl, nofun, by rw [hu]; rfl⟩

/-- At the four loads the block holds the clock low, and its latch leaves the data line to `SDO` (R87). -/
theorem Block.Shaped.latches_at_load {b : Block} (h : b.Shaped)
    (hu : b.upc = .write .w1 ∨ b.upc = .readAck .a2 ∨ b.upc = .readNack .n2 ∨ b.upc = .transfer .t9) :
    b.outScl = false ∧ b.outSda = true := by
  have hs := h.shape
  rcases hu with hu | hu | hu | hu <;> simp_all [Block.shape, Block.settled, Block.transferSetUp]

/-- Settles O12: with the clock held low the line update of a load opens the latch and does nothing else. -/
theorem shiftRegisterLoadsAreMadeWithTheClockLow : Obligations.ShiftRegisterLoadsAreMadeWithTheClockLow := by
  intro e b b' v hi h hu
  obtain ⟨m, hm, hl, hw, hwrites⟩ := Block.writes_of_load hu
  obtain ⟨hsh, -⟩ := Block.shaped_of_seqStep hi h hm fun hop => by simp [hop] at hl
  obtain ⟨hscl, hsda⟩ := hsh.latches_at_load
    (hu.imp And.left (Or.imp And.left (Or.imp And.left And.left)))
  have hlow (c : Block) (hd : c.dirScl = true) (ho : c.outScl = false) : c.sclLine e = false := by
    simp [Block.sclLine_eq_outScl hd, ho]
  have hb' := Block.seqStep_of_low (e := e) (Block.seqStep_some h).1 hm hl hw (by rw [hwrites]; exact hsh.control)
    (by rw [hwrites]; exact hsh.dirScl) (by rw [hwrites]; exact hscl)
  rw [hwrites] at hb'
  obtain rfl := Option.some.inj (h.symm.trans hb')
  refine ⟨hlow b hsh.dirScl hscl, hlow _ hsh.dirScl hscl, rfl, rfl, ?_, rfl, rfl, rfl⟩
  simp [Block.sdaLine, Block.mSda, hsda, Bool.and_comm]

/-- Settles O20: a condition of the sequencer's making is S3's, P0's or P4's. -/
theorem onlyFramingStepsMakeConditions : Obligations.OnlyFramingStepsMakeConditions := by
  intro e b b' hi h hscl hscl' hsda
  rcases Block.seqStep_condition hi h hscl hscl' hsda with ⟨hu, -, hl⟩ | ⟨hu, -, hl⟩ | ⟨hu, -, hl⟩
  · exact .inl ⟨.inl hu, hl⟩
  · exact .inl ⟨.inr hu, hl⟩
  · exact .inr ⟨hu, hl⟩

end Sys2Proof.Machine
end

section
/-! SUPPORT. A command on a quiet bus, block by block: its run, its trail, and what is read off them (R80, R166). -/

namespace Sys2Proof.Machine

/-- The sequencer alone takes `b` through the blocks `cs`, one micro-step each, and no further. -/
def Block.RunsThrough (e : Env) : Block → List Block → Prop
  | b, [] => b.seqStep e = none
  | b, c :: cs => b.seqStep e = some c ∧ RunsThrough e c cs

/-- The events of the micro-steps that take `b` through the blocks `cs`. -/
def State.eventsThrough (s : State) : Block → List Block → List Event
  | _, [] => []
  | b, c :: cs => ⟨some b.upc, { s with blk := c }⟩ :: State.eventsThrough s c cs

theorem State.lastState_eventsThrough (s : State) (b : Block) (cs : List Block) :
    lastState { s with blk := b } (s.eventsThrough b cs) = { s with blk := cs.getLastD b } := by
  induction cs generalizing b with
  | nil => rfl
  | cons c cs ih => simpa only [State.eventsThrough, lastState_cons, List.getLastD_cons] using ih c

theorem State.linesAfter_eventsThrough (s : State) (b : Block) (cs : List Block) :
    linesAfter (s.eventsThrough b cs) = cs.map fun c => (c.sclLine s.env, c.sdaLine s.env) := by
  induction cs generalizing b with
  | nil => rfl
  | cons c cs ih => exact congrArg (_ :: ·) (ih c)

/-- The last block is one that no micro-step is enabled in. -/
theorem Block.RunsThrough.seqStep_last {e : Env} {b : Block} {cs : List Block} (h : b.RunsThrough e cs) :
    (cs.getLastD b).seqStep e = none := by
  induction cs generalizing b with
  | nil => exact h
  | cons c cs ih =>
    rw [List.getLastD_cons]
    exact ih h.2

/-- A quiet run long enough for them shows these micro-steps (R166). -/
theorem Block.RunsThrough.trailQuiet {s : State} {b : Block} {cs : List Block} {n : Nat}
    (h : b.RunsThrough s.env cs) (hr : s.rst = false) (hn : cs.length ≤ n) :
    State.trailQuiet n { s with blk := b } = s.eventsThrough b cs := by
  have hstep (b : Block) : State.seqStep { s with blk := b } = (b.seqStep s.env).map fun c => { s with blk := c } :=
    State.seqStep_of_released hr
  induction cs generalizing b n with
  | nil =>
    have hnone : b.seqStep s.env = none := h
    cases n with
    | zero => rfl
    | succ n => simp [State.trailQuiet, hstep, hnone, State.eventsThrough]
  | cons c cs ih =>
    obtain ⟨n, rfl⟩ := Nat.exists_eq_succ_of_ne_zero (n := n) (by rintro rfl; simp at hn)
    have hrest := ih h.2 (Nat.le_of_succ_le_succ hn)
    simp [State.trailQuiet, hstep, h.1, State.eventsThrough, hrest]

/-- A command on a quiet bus ends in the last of the blocks it runs through, with those micro-steps as its trail
(R62, R166). -/
theorem exec_of_runsThrough {i : Instr} {s : State} {cs : List Block} (hr : s.ready = true) (hq : s.quiet = true)
    (hc : i.opcode = 0#3 ∨ s.blk.control = Config.controlWord)
    (h : (s.accepted i).blk.RunsThrough s.env cs) (hn : cs.length ≤ maxMicroSteps) :
    exec i s = .next { s with blk := cs.getLastD (s.accepted i).blk } ∧
      (s.accepted i).trail = s.eventsThrough (s.accepted i).blk cs := by
  have ha : (s.accepted i).agenda = [] := by simpa [State.quiet] using hq
  have htrail := h.trailQuiet (State.ready_iff.mp hr).1 hn
  refine ⟨?_, (State.trail_of_quiet ha).trans htrail⟩
  rw [exec_of_ready hr hc, State.run_of_quiet ha, ← State.lastState_eventsThrough, ← htrail]
  exact congrArg _ (State.trailQuiet_last _ _).symm

/-- The step after a command that is blocked on a quiet bus is the fault that names its label (R131). -/
theorem step_of_hang {s : State} (hr : s.rst = false) (hq : s.quiet = true) (hb : s.blk.busy = true)
    (hn : s.blk.seqStep s.env = none) : step s = .fault (.hang s.blk.upc) := by
  have hfetch : s.fetch = none := State.fetch_of_not_ready (by simp [State.ready, Block.cmdReady, hb])
  rw [step_of_fetch_none hfetch]
  exact State.advance_of_hang (by simpa [State.quiet] using hq) hb hr (by simp [State.seqStep_of_released hr, hn])

end Sys2Proof.Machine
end

section
/-! SUPPORT. The micro-steps of START and STOP on a quiet bus (R85, R90 to R92, R111, R112). -/

namespace Sys2Proof.Machine

/-- The block at a label of START or STOP, by its two output latches and its two flags. -/
def Block.framingAt (b : Block) (l : Label) (scl sda : Level) (start stop : Bool) : Block :=
  { b with upc := l, outScl := scl, outSda := sda, fStart := start, fStop := stop }

/-- What holds of the block all along START and STOP: both lines are outputs, and the shift register and its latch are
at rest (R32, R111, R112). -/
structure Block.Framing (b : Block) : Prop where
  busy : b.busy = true
  control : b.control = Config.controlWord
  dirSda : b.dirSda = true
  dirScl : b.dirScl = true
  sr : b.sr = Config.idleHigh
  sdo : b.sdo = true
  xfer : b.xfer = false

section
variable {e : Env} {b : Block} {l l' : Label} {scl sda scl' sda' v : Level} {start stop start' stop' : Bool}

theorem Block.Framing.sclLine (h : b.Framing) (e : Env) :
    (b.framingAt l scl sda start stop).sclLine e = (scl && e.scl) :=
  Block.sclLine_eq_outScl h.dirScl

theorem Block.Framing.sdaLine (h : b.Framing) (e : Env) :
    (b.framingAt l scl sda start stop).sdaLine e = (sda && e.sda) := by
  simp [Block.sdaLine, Block.mSda, Block.framingAt, h.dirSda, h.sdo]

/-- With the shift register and its latch at rest a line update can set the two flags and no more (R84). -/
theorem Block.Framing.lineUpdate (h : b.Framing) (scl0 sda0 : Level) :
    (b.framingAt l scl sda start stop).lineUpdate e scl0 sda0 = b.framingAt l scl sda
      (start || startCondition scl0 (scl && e.scl) sda0 (sda && e.sda))
      (stop || stopCondition scl0 (scl && e.scl) sda0 (sda && e.sda)) := by
  generalize hc : b.framingAt l scl sda start stop = c
  have hx : c.xfer = false := hc ▸ h.xfer
  have hsr : (c.lineUpdate e scl0 sda0).sr = c.sr := by simp [Block.lineUpdate_sr, hx]
  have hsdo : (c.lineUpdate e scl0 sda0).sdo = c.sdo := by
    rw [show c.sdo = true from hc ▸ h.sdo]
    exact Block.lineUpdate_sdo_of_idleHigh (hc ▸ h.sr) (hc ▸ h.sdo)
  have hline : (c.lineUpdate e scl0 sda0).sdaLine e = c.sdaLine e := Block.sdaLine_congr (by simp) (by simp) hsdo
  have htwm : c.twm = true := Block.twm_of_control (hc ▸ h.control)
  rw [Block.lineUpdate_eq, Block.lineUpdate_fStart, Block.lineUpdate_fStop, hline, hsr, hsdo, htwm, ← hc, h.sclLine,
    h.sdaLine]
  rfl

/-- A micro-step, from what it writes to the two latches, and the conditions it makes (R81, R84, R111, R112). -/
theorem Block.Framing.seqStep {m : MicroStep} (h : b.Framing) (hm : microcode l = some m)
    (hl : m.op.updatesLines = true) (hw : m.op = .waitScl → (scl && e.scl) = true)
    (hwrites : m.writes (b.framingAt l scl sda start stop) = b.framingAt l' scl' sda' start stop) :
    (b.framingAt l scl sda start stop).seqStep e = some (b.framingAt l' scl' sda'
      (start || startCondition (scl && e.scl) (scl' && e.scl) (sda && e.sda) (sda' && e.sda))
      (stop || stopCondition (scl && e.scl) (scl' && e.scl) (sda && e.sda) (sda' && e.sda))) := by
  rw [Block.seqStep_of_writes (b := b.framingAt l scl sda start stop) h.busy hm hl fun ho => (h.sclLine e).trans (hw ho),
    hwrites, h.sclLine, h.sdaLine, h.lineUpdate]

/-- A micro-step that leaves the data latch makes no condition (R84). -/
theorem Block.Framing.seqStep_still {m : MicroStep} (h : b.Framing) (hm : microcode l = some m)
    (hl : m.op.updatesLines = true) (hw : m.op = .waitScl → (scl && e.scl) = true)
    (hwrites : m.writes (b.framingAt l scl sda start stop) = b.framingAt l' scl' sda start stop) :
    (b.framingAt l scl sda start stop).seqStep e = some (b.framingAt l' scl' sda start stop) := by
  have hnone (c c' x : Level) : startCondition c c' x x = false ∧ stopCondition c c' x x = false := by
    cases x <;> simp [startCondition, stopCondition]
  simp [h.seqStep hm hl hw hwrites, hnone]

/-- A write of the data latch makes the condition of its edge, if the clock line reads high (R9, R85). -/
theorem Block.Framing.seqStep_setSda (h : b.Framing) (hm : microcode l = some ⟨.setOut .sda v, l'⟩)
    (hstart : (start || (scl && e.scl && (sda && !v && e.sda))) = start')
    (hstop : (stop || (scl && e.scl && (!sda && v && e.sda))) = stop') :
    (b.framingAt l scl sda start stop).seqStep e = some (b.framingAt l' scl v start' stop') := by
  have hfall : ∀ c x y m : Level, startCondition c c (x && m) (y && m) = (c && (x && !y && m)) := by decide
  have hrise : ∀ c x y m : Level, stopCondition c c (x && m) (y && m) = (c && (!x && y && m)) := by decide
  rw [h.seqStep (scl' := scl) (sda' := v) hm rfl nofun rfl, ← hstart, ← hstop, hfall, hrise]

/-- A WAIT is blocked while the environment holds the clock line low (R90). -/
theorem Block.Framing.seqStep_blocked (h : b.Framing) (hm : microcode l = some ⟨.waitScl, l'⟩) (he : e.scl = false) :
    (b.framingAt l scl sda start stop).seqStep e = none := by
  have hlow : (b.framingAt l scl sda start stop).sclLine e = false := by simp [h.sclLine, he]
  have hbusy : (b.framingAt l scl sda start stop).busy = true := h.busy
  have hcode : microcode (b.framingAt l scl sda start stop).upc = some ⟨.waitScl, l'⟩ := hm
  simp [Block.seqStep, hbusy, hcode, MicroOp.perform_eq_none, hlow]

theorem Block.Framing.seqStep_fin (h : b.Framing) (hm : microcode l = some ⟨.fin .nothing, l'⟩) :
    (b.framingAt l scl sda start stop).seqStep e = some ((b.framingAt l scl sda start stop).fin .nothing) := by
  have hbusy : (b.framingAt l scl sda start stop).busy = true := h.busy
  have hcode : microcode (b.framingAt l scl sda start stop).upc = some ⟨.fin .nothing, l'⟩ := hm
  simp [Block.seqStep, hbusy, hcode, MicroOp.perform]

/-! ## The two programs -/

/-- The blocks a START runs through with the clock line let go by the environment: clock released, waited for, held;
data low, held; clock low, data released, finished (R111). -/
def Block.startBlocks (b : Block) (e : Env) (start stop : Bool) : List Block :=
  [b.framingAt (.start .s1) true true start stop, b.framingAt (.start .s2) true true start stop,
    b.framingAt (.start .s3) true true start stop, b.framingAt (.start .s4) true false (start || e.sda) stop,
    b.framingAt (.start .s5) true false (start || e.sda) stop,
    b.framingAt (.start .s6) false false (start || e.sda) stop,
    b.framingAt (.start .sFin) false true (start || e.sda) stop,
    (b.framingAt (.start .sFin) false true (start || e.sda) stop).fin .nothing]

theorem Block.length_startBlocks (b : Block) (e : Env) (start stop : Bool) :
    (b.startBlocks e start stop).length ≤ maxMicroSteps := by
  simp [Block.startBlocks, maxMicroSteps]

theorem Block.Framing.start_runsThrough (h : b.Framing) (he : e.scl = true) :
    (b.framingAt (.start .s0) scl true start stop).RunsThrough e (b.startBlocks e start stop) :=
  ⟨h.seqStep_still (m := startProgram .s0) rfl rfl nofun rfl,
    h.seqStep_still (m := startProgram .s1) rfl rfl (fun _ => he) rfl,
    h.seqStep_still (m := startProgram .s2) rfl rfl nofun rfl,
    h.seqStep_setSda rfl (by simp [he]) (by simp),
    h.seqStep_still (m := startProgram .s4) rfl rfl nofun rfl,
    h.seqStep_still (m := startProgram .s5) rfl rfl nofun rfl,
    h.seqStep_setSda rfl (by simp) (by simp), h.seqStep_fin rfl, rfl⟩

/-- The blocks a STOP runs through with the clock line let go by the environment: data low, clock released, waited for,
held; data released, held, finished (R112). -/
def Block.stopBlocks (b : Block) (e : Env) (scl : Level) (start stop : Bool) : List Block :=
  [b.framingAt (.stop .p1) scl false (start || (scl && e.sda)) stop,
    b.framingAt (.stop .p2) true false (start || (scl && e.sda)) stop,
    b.framingAt (.stop .p3) true false (start || (scl && e.sda)) stop,
    b.framingAt (.stop .p4) true false (start || (scl && e.sda)) stop,
    b.framingAt (.stop .p5) true true (start || (scl && e.sda)) (stop || e.sda),
    b.framingAt (.stop .pFin) true true (start || (scl && e.sda)) (stop || e.sda),
    (b.framingAt (.stop .pFin) true true (start || (scl && e.sda)) (stop || e.sda)).fin .nothing]

theorem Block.length_stopBlocks (b : Block) (e : Env) (scl : Level) (start stop : Bool) :
    (b.stopBlocks e scl start stop).length ≤ maxMicroSteps := by
  simp [Block.stopBlocks, maxMicroSteps]

theorem Block.Framing.stop_runsThrough (h : b.Framing) (he : e.scl = true) :
    (b.framingAt (.stop .p0) scl true start stop).RunsThrough e (b.stopBlocks e scl start stop) :=
  ⟨h.seqStep_setSda rfl (by simp [he]) (by simp),
    h.seqStep_still (m := stopProgram .p1) rfl rfl nofun rfl,
    h.seqStep_still (m := stopProgram .p2) rfl rfl (fun _ => he) rfl,
    h.seqStep_still (m := stopProgram .p3) rfl rfl nofun rfl,
    h.seqStep_setSda rfl (by simp) (by simp [he]),
    h.seqStep_still (m := stopProgram .p5) rfl rfl nofun rfl, h.seqStep_fin rfl, rfl⟩

/-- With the clock line held low by the environment START is blocked at S1 (R131). -/
theorem Block.Framing.start_runsThrough_stuck (h : b.Framing) (he : e.scl = false) :
    (b.framingAt (.start .s0) scl true start stop).RunsThrough e [b.framingAt (.start .s1) true true start stop] :=
  ⟨h.seqStep_still (m := startProgram .s0) rfl rfl nofun rfl, h.seqStep_blocked rfl he⟩

/-- With the clock line held low by the environment STOP is blocked at P2 (R131). -/
theorem Block.Framing.stop_runsThrough_stuck (h : b.Framing) (he : e.scl = false) :
    (b.framingAt (.stop .p0) scl true start stop).RunsThrough e
      [b.framingAt (.stop .p1) scl false start stop, b.framingAt (.stop .p2) true false start stop] :=
  ⟨h.seqStep_setSda rfl (by simp [he]) (by simp [he]),
    h.seqStep_still (m := stopProgram .p1) rfl rfl nofun rfl, h.seqStep_blocked rfl he⟩

end

end Sys2Proof.Machine
end

section
/-! SUPPORT. START and STOP from a command boundary, on a quiet bus (R111 to R113, R131). -/

namespace Sys2Proof.Machine

/-- A command boundary after the first INIT, taken apart (R32). -/
structure State.Boundary (s : State) : Prop where
  rst : s.rst = false
  busy : s.blk.busy = false
  control : s.blk.control = Config.controlWord
  dirSda : s.blk.dirSda = true
  outSda : s.blk.outSda = true
  sr : s.blk.sr = Config.idleHigh
  sdo : s.blk.sdo = true
  dirScl : s.blk.dirScl = true
  xfer : s.blk.xfer = false
  upc : s.blk.upc = .idle

theorem State.boundary_iff {s : State} : s.atBoundary = true ↔ s.Boundary := by
  simp only [State.atBoundary, Block.atBoundary, Block.settled, Bool.and_eq_true, Bool.not_eq_true', beq_iff_eq]
  exact ⟨fun ⟨hr, ⟨⟨⟨⟨hb, hc⟩, ⟨⟨hd, ho⟩, hsr⟩, hsdo⟩, hs⟩, hx⟩, hu⟩ => ⟨hr, hb, hc, hd, ho, hsr, hsdo, hs, hx, hu⟩,
    fun h => ⟨h.rst, ⟨⟨⟨⟨h.busy, h.control⟩, ⟨⟨h.dirSda, h.outSda⟩, h.sr⟩, h.sdo⟩, h.dirScl⟩, h.xfer⟩, h.upc⟩⟩

section
variable {s : State} {i : Instr} {cs : List Block}

theorem State.Boundary.ready (h : s.Boundary) : s.ready = true := State.ready_iff.mpr ⟨h.rst, h.busy⟩

/-- Acceptance at a command boundary leaves the registers as a framing command finds them (R32, R62). -/
theorem State.Boundary.framing_accepted (h : s.Boundary) (i : Instr) : (s.accepted i).blk.Framing :=
  ⟨rfl, h.control, h.dirSda, h.dirScl, h.sr, h.sdo, h.xfer⟩

theorem State.Boundary.accepted_eq (h : s.Boundary) (i : Instr) :
    (s.accepted i).blk =
      (s.accepted i).blk.framingAt (firstLabel i) s.blk.outScl true s.blk.fStart s.blk.fStop := by
  rw [← h.outSda]
  rfl

/-- A finished framing command leaves the clock latch, the two flags, the command latch and the response written, and
every other register at the value the boundary gave it (R92, R111, R112). -/
theorem State.Boundary.framingAt_fin (h : s.Boundary) (l : Label) (scl : Level) (start stop : Bool) :
    ((s.accepted i).blk.framingAt l scl true start stop).fin .nothing = { s.blk with
      outScl := scl, fStart := start, fStop := stop, op := i.opcode, arg := i.operand
      rspValid := true, rspAck := false, rspData := 0x00#8 } := by
  simp [Block.fin, Block.resultOf, Block.framingAt, State.accepted, Block.accept, h.busy, h.outSda, h.upc]

section
variable {b : Block} (h : s.Boundary) (hq : s.quiet = true)
  (hrun : ((s.accepted i).blk.framingAt (firstLabel i) s.blk.outScl true s.blk.fStart s.blk.fStop).RunsThrough s.env cs)
  (hn : cs.length ≤ maxMicroSteps) (hlast : cs.getLastD (s.accepted i).blk = b)
include h hq hrun hn hlast

/-- A command at a boundary, on a quiet bus, by the blocks its first label runs through (R62, R166). -/
theorem State.Boundary.exec_framing :
    exec i s = .next { s with blk := b } ∧ (s.accepted i).trail = s.eventsThrough (s.accepted i).blk cs := by
  rw [← h.accepted_eq i] at hrun
  rw [← hlast]
  exact exec_of_runsThrough h.ready hq (.inr h.control) hrun hn

/-- The same of a command that does not finish: it hangs at its last label (R131). -/
theorem State.Boundary.hangs (hb : b.busy = true) :
    ∃ t, exec i s = .next t ∧ t = { s with blk := b } ∧ step t = .fault (.hang b.upc) := by
  refine ⟨_, (h.exec_framing hq hrun hn hlast).1, rfl, ?_⟩
  rw [← h.accepted_eq i] at hrun
  have hnone : b.seqStep s.env = none := hlast ▸ hrun.seqStep_last
  exact step_of_hang (s := { s with blk := b }) h.rst hq hb hnone

end

end

/-- Settles O29: START runs through its eight blocks and finishes. -/
theorem startCompletes : Obligations.StartCompletes := by
  intro d s hat hq he
  have h := State.boundary_iff.mp hat
  exact (h.exec_framing hq ((h.framing_accepted (.start d)).start_runsThrough he) (Block.length_startBlocks ..)
    (h.framingAt_fin (.start .sFin) _ _ _)).1

/-- Settles O30: STOP runs through its seven blocks and finishes. -/
theorem stopCompletes : Obligations.StopCompletes := by
  intro d s hat hq he
  have h := State.boundary_iff.mp hat
  exact (h.exec_framing hq ((h.framing_accepted (.stop d)).stop_runsThrough he) (Block.length_stopBlocks ..)
    (h.framingAt_fin (.stop .pFin) _ _ _)).1

/-- Settles O34: with the clock line low START gets no further than S1, and STOP than P2. -/
theorem framingCommandsHangOnAStuckClock : Obligations.FramingCommandsHangOnAStuckClock := by
  intro d s hat hq he
  have h := State.boundary_iff.mp hat
  constructor
  · refine h.hangs (i := .start d) hq ((h.framing_accepted (.start d)).start_runsThrough_stuck he)
      (by simp [maxMicroSteps]) ?_ rfl
    simp [Block.framingAt, State.accepted, Block.accept, Instr.opcode, Instr.operand, h.outSda]
  · exact h.hangs (i := .stop d) hq ((h.framing_accepted (.stop d)).stop_runsThrough_stuck he)
      (by simp [maxMicroSteps]) rfl rfl

/-! ## START and then STOP on an idle bus (R113) -/

/-- The environment of an idle bus pulls neither line (R44). -/
def Env.idle : Env := { sda := true, scl := true }

@[simp] theorem Block.fin_lines (e : Env) (r : Result) (b : Block) :
    (b.fin r).sclLine e = b.sclLine e ∧ (b.fin r).sdaLine e = b.sdaLine e := ⟨rfl, rfl⟩

/-- The lines after each micro-step of a START on an idle bus (R111, R113). -/
theorem Block.Framing.lines_startBlocks {b : Block} (h : b.Framing) (start stop : Bool) :
    (b.startBlocks .idle start stop).map (fun c => (c.sclLine .idle, c.sdaLine .idle)) =
      [(true, true), (true, true), (true, true), (true, false), (true, false), (false, false), (false, true),
        (false, true)] := by
  simp [Block.startBlocks, h.sclLine, h.sdaLine, Env.idle]

/-- The lines after each micro-step of a STOP on an idle bus, with the clock held low before it (R112, R113). -/
theorem Block.Framing.lines_stopBlocks {b : Block} (h : b.Framing) (start stop : Bool) :
    (b.stopBlocks .idle false start stop).map (fun c => (c.sclLine .idle, c.sdaLine .idle)) =
      [(false, false), (true, false), (true, false), (true, false), (true, true), (true, true), (true, true)] := by
  simp [Block.stopBlocks, h.sclLine, h.sdaLine, Env.idle]

/-- The lines at a command boundary on an idle bus: the data line is high, the clock line as the block has it (R32). -/
theorem State.Boundary.lines {s : State} (h : s.Boundary) (he : s.env = .idle) : s.lines = (s.blk.outScl, true) := by
  simp [State.lines, State.sclLine, State.sdaLine, Block.sclLine_eq_outScl h.dirScl, Block.sdaLine, Block.mSda, h.outSda,
    h.sdo, he, Env.idle]

/-- What the bus shows of a START at a boundary on an idle bus (R111, R113). -/
theorem State.Boundary.shows_start {s : State} (h : s.Boundary) (hq : s.quiet = true) (he : s.env = .idle)
    (ho : s.blk.outScl = true) (d : Byte) :
    (s.accepted (.start d)).lineChanges (s.accepted (.start d)).trail = [(true, false), (false, false), (false, true)] ∧
      delaysOf (s.accepted (.start d)).trail = [.tHigh, .tLow] := by
  have hlines : (s.accepted (.start d)).lines = (true, true) := by
    exact (h.lines he).trans (by rw [ho])
  have hscl : s.env.scl = true := by rw [he]; rfl
  rw [(h.exec_framing (i := .start d) hq ((h.framing_accepted (.start d)).start_runsThrough hscl)
    (Block.length_startBlocks ..) rfl).2]
  refine ⟨?_, rfl⟩
  rw [State.lineChanges, hlines, State.linesAfter_eventsThrough, he, (h.framing_accepted _).lines_startBlocks]
  rfl

/-- What the bus shows of a STOP at a boundary on an idle bus, with the clock held low before it (R112, R113). -/
theorem State.Boundary.shows_stop {s : State} (h : s.Boundary) (hq : s.quiet = true) (he : s.env = .idle)
    (ho : s.blk.outScl = false) (d : Byte) :
    (s.accepted (.stop d)).lineChanges (s.accepted (.stop d)).trail = [(false, false), (true, false), (true, true)] ∧
      delaysOf (s.accepted (.stop d)).trail = [.tHigh, .tLow] := by
  have hlines : (s.accepted (.stop d)).lines = (false, true) := by
    exact (h.lines he).trans (by rw [ho])
  have hscl : s.env.scl = true := by rw [he]; rfl
  rw [(h.exec_framing (i := .stop d) hq ((h.framing_accepted (.stop d)).stop_runsThrough hscl)
    (Block.length_stopBlocks ..) rfl).2]
  refine ⟨?_, rfl⟩
  rw [State.lineChanges, hlines, State.linesAfter_eventsThrough, he, ho, (h.framing_accepted _).lines_stopBlocks]
  rfl

/-- Settles O37: START ends at a boundary with the clock held low, and STOP ends where START began. -/
theorem startThenStopRestoresTheBlock : Obligations.StartThenStopRestoresTheBlock := by
  intro d d' s hat hq (he : s.env = .idle) ho
  have h := State.boundary_iff.mp hat
  have hscl : s.env.scl = true := by rw [he]; rfl
  have hstart := startCompletes d s hat hq hscl
  generalize ht : State.mk _ _ _ _ _ = t at hstart
  have hq' : t.quiet = true := by rw [← ht]; exact hq
  have he' : t.env = .idle := by rw [← ht]; exact he
  have ho' : t.blk.outScl = false := by rw [← ht]
  have hb : t.Boundary := by
    rw [← ht]
    exact ⟨h.rst, h.busy, h.control, h.dirSda, h.outSda, h.sr, h.sdo, h.dirScl, h.xfer, h.upc⟩
  obtain ⟨hlines, hdelays⟩ := h.shows_start hq he ho d
  obtain ⟨hlines', hdelays'⟩ := hb.shows_stop hq' he' ho' d'
  refine ⟨t, hstart, ?_, ho ▸ h.lines he, hlines, hlines', hdelays, hdelays'⟩
  rw [stopCompletes d' t (State.boundary_iff.mpr hb) hq' (by rw [he']; rfl), ← ht]
  simp [he, ho, Env.idle]

end Sys2Proof.Machine
end

section
/-! SUPPORT. INIT: its end on a quiet bus, and what it leaves on every bus (R49, R110, R162). -/

namespace Sys2Proof.Machine

/-- Settles O27: I0 and FIN write the registers of the statement, and leave `BUSY` as acceptance found it. -/
theorem initCompletes : Obligations.InitCompletes := by
  intro d s hr hq
  have hb : s.blk.busy = false := (State.ready_iff.mp hr).2
  rw [exec_init_of_quiet d hr hq]
  simp [Block.fin, Block.resultOf, Block.goto, Block.configure, Block.clearFlags, Block.accept, Instr.opcode,
    Instr.operand, Config.idleHigh, Config.controlWord, hb]

/-- Settles O36: the registers are those of a completed INIT, and a condition would be a framing command's. -/
theorem initInsideATransactionMakesNoStop : Obligations.InitInsideATransactionMakesNoStop := by
  intro d s t hat hq he _ hexec
  have hr := (State.boundary_iff.mp hat).ready
  have ha : s.agenda = [] := by simpa [State.quiet] using hq
  obtain rfl := Host.Outcome.next.inj ((initCompletes d s hr hq).symm.trans hexec)
  refine ⟨rfl, by simp [State.sclLine, Block.sclLine, Block.mScl, he], rfl, rfl, rfl, ?_⟩
  have hown := conditionsAreTheFramingCommandsOwn (.init d) s (State.inv_of_atBoundary hat) hr (.inl rfl)
    (by simp [State.noReset, ha]) (by simp [State.env2, ha, State.agendaMeets])
  exact List.eq_nil_iff_forall_not_mem.mpr fun e hmem => by simpa [Instr.opcode] using hown e hmem

/-- `t` is a state of a run of INIT that began in `s` and has not been reset. -/
structure State.InitRun (s t : State) : Prop where
  rst : t.rst = false
  upc : t.blk.upc = .idle ∨ ∃ l, t.blk.upc = .init l
  tret : t.blk.tret = s.blk.tret
  tw : t.blk.tw = s.blk.tw
  cap : t.blk.cap = s.blk.cap
  rxb : t.blk.rxb = s.blk.rxb
  script : t.script = s.script

/-- The micro-steps of INIT write neither `TRET`, `TW`, `CAP` nor `RXB`, and lead to no other program (R110). -/
theorem State.InitRun.seqStep {s t u : State} (h : s.InitRun t) (hu : t.seqStep = some u) : s.InitRun u := by
  obtain ⟨-, b, hb, rfl⟩ := State.seqStep_some hu
  obtain ⟨m, hm, ha⟩ := Block.seqStep_agrees hb
  obtain ⟨l, hl⟩ := h.upc.resolve_left fun hidle => by simp [hidle, microcode] at hm
  obtain rfl : initProgram l = m := by simpa [hl, microcode] using hm
  have hupc : b.upc = .idle ∨ ∃ l, b.upc = .init l := by
    rw [ha.upc]
    cases l with
    | i0 => exact .inr ⟨_, rfl⟩
    | iFin => exact .inl rfl
  obtain ⟨-, -, -, -, -, -, -, hcall, hcap, hrxb, -⟩ := registersAreWrittenByTheirStepsAlone t.env t.blk b hb
  simp only [hl, reduceCtorEq, or_self, imp_false, not_or, ne_eq, not_not] at hcall hcap hrxb
  exact ⟨h.rst, hupc, hcall.1.trans h.tret, hcall.2.trans h.tw, hcap.trans h.cap, hrxb.trans h.rxb, h.script⟩

theorem State.InitRun.envStep {s t : State} (h : s.InitRun t) (l : Line) : s.InitRun (t.envStep l) :=
  ⟨h.rst, by simpa using h.upc, by simpa using h.tret, by simpa using h.tw, by simpa using h.cap,
    by simpa using h.rxb, h.script⟩

/-- A run in which no move of the environment is planned leaves its lines (R44, R45). -/
theorem State.run_env {s : State} (h : s.noEnvironment = true) : s.run.env = s.env := by
  refine State.runAgenda_keeps_of_meets (p := fun _ _ => true) (P := fun t => t.env = s.env)
    (fun t u ht hu => (State.seqStep_frame hu).1.trans ht) (fun _ _ ht => ht) s.agenda (fun m hm t ht _ => ?_) s rfl
    (State.agendaMeets_of_forall (fun _ _ => rfl) _ _)
  rcases State.move_cases m t with he | hu | ⟨l, rfl, -, -⟩ | ⟨-, he⟩ | ⟨-, he⟩
  · exact he.symm ▸ ht
  · exact (State.seqStep_frame hu).1.trans ht
  · have hall := List.all_eq_true.mp h _ hm
    cases l <;> simp at hall
  · exact he.symm ▸ ht
  · exact he.symm ▸ ht

/-- Settles O53: the run is one of INIT to its end, or INIT was not accepted. -/
theorem frameOfInit : Obligations.FrameOfInit := by
  intro d s t _ hno hexec
  rcases exec_next hexec with ⟨-, rfl⟩ | ⟨hr, -, rfl⟩
  · exact ⟨rfl, rfl, rfl, rfl, rfl, rfl, fun _ => rfl⟩
  have hrst := (State.ready_iff.mp hr).1
  have hbus : State.BusRun (fun _ _ => true) (s.accepted (.init d)) (s.accepted (.init d)).trail
      (s.accepted (.init d)).run :=
    State.busRun_trail hrst hno (State.agendaMeets_of_forall (fun _ _ => rfl) _ _)
  have hend : s.InitRun (s.accepted (.init d)).run :=
    hbus.keeps (P := s.InitRun) (fun _ _ h => ⟨h.rst, h.upc, h.tret, h.tw, h.cap, h.rxb, h.script⟩)
      (fun _ _ h hu => h.seqStep hu) (fun _ l h => h.envStep l) ⟨hrst, .inr ⟨_, rfl⟩, rfl, rfl, rfl, rfl, rfl⟩
  exact ⟨hend.tret, hend.tw, hend.cap, hend.rxb, hend.script, hend.rst.trans hrst.symm,
    State.run_env (s := s.accepted (.init d))⟩

end Sys2Proof.Machine
end

section
/-! SUPPORT. The byte commands on a bus without reset: what they leave unchanged, and where they leave the clock (R120
to R122). -/

namespace Sys2Proof.Machine

/-- With `OP` of a byte command the sequencer is at no label of the framing commands (R110 to R112). -/
theorem Block.Shaped.upc_ne_of_byte {b : Block} (h : b.Shaped) (ho : b.op = 3#3 ∨ b.op = 4#3 ∨ b.op = 5#3) :
    (∀ l, b.upc ≠ .init l) ∧ (∀ l, b.upc ≠ .start l) ∧ ∀ l, b.upc ≠ .stop l := by
  have hs := h.shape
  have hframing : b.op ≠ 0#3 ∧ b.op ≠ 1#3 ∧ b.op ≠ 2#3 := by
    rcases ho with ho | ho | ho <;> simp [ho]
  refine ⟨fun l hu => ?_, fun l hu => ?_, fun l hu => ?_⟩
  · cases l <;> simp [Block.shape, hu, hframing] at hs
  · cases l <;> simp [Block.shape, hu, hframing] at hs
  · cases l <;> simp [Block.shape, hu, hframing] at hs

/-- In a byte command `RXB` is written by a READ alone (R121, R122). -/
theorem Block.Shaped.rxb_of_write {e : Env} {b b' : Block} (h : b.Shaped) (hs : b.seqStep e = some b')
    (ho : b.op = 3#3) : b'.rxb = b.rxb := by
  have hshape := h.shape
  obtain ⟨-, -, -, -, -, -, -, -, -, hrxb, -⟩ := registersAreWrittenByTheirStepsAlone e b b' hs
  by_contra hne
  rcases hrxb hne with hu | hu <;> simp [Block.shape, hu, ho] at hshape

/-- `t` is a state of a run of a byte command that began in `s` and has not been reset. -/
structure State.ByteFrame (s t : State) : Prop where
  inv : t.blk.inv t.env = true
  rst : t.rst = false
  script : t.script = s.script
  op : t.blk.op = s.blk.op
  control : t.blk.control = s.blk.control
  dirScl : t.blk.dirScl = s.blk.dirScl
  outSda : t.blk.outSda = s.blk.outSda
  fColl : t.blk.fColl = s.blk.fColl
  rxb : s.blk.op = 3#3 → t.blk.rxb = s.blk.rxb
  outScl : t.blk.busy = false → t.blk.outScl = false

theorem State.ByteFrame.seqStep {s t u : State} (h : s.ByteFrame t)
    (ho : s.blk.op = 3#3 ∨ s.blk.op = 4#3 ∨ s.blk.op = 5#3) (hc : s.blk.control = Config.controlWord)
    (hu : t.seqStep = some u) : s.ByteFrame u := by
  obtain ⟨-, b, hb, rfl⟩ := State.seqStep_some hu
  have hsh := (Block.shaped_of_control h.inv (h.control.trans hc)).1
  rw [← h.op] at ho
  obtain ⟨hinit, hstart, hstop⟩ := hsh.upc_ne_of_byte ho
  obtain ⟨hconf, -, hsda, -, -, -, -, -, -, -, -, hop, -⟩ := registersAreWrittenByTheirStepsAlone t.env t.blk b hb
  simp only [hinit, hstart, hstop, or_self, imp_false, not_or, ne_eq, not_not] at hconf hsda
  obtain ⟨hdir, hcontrol, hcoll⟩ := hconf
  have hne : b.op ≠ 0#3 ∧ b.op ≠ 2#3 := by
    rcases ho with ho | ho | ho <;> simp [hop, ho]
  exact ⟨Block.inv_seqStep h.inv hb, h.rst, h.script, hop.trans h.op, hcontrol.trans h.control, hdir.trans h.dirScl,
    hsda.trans h.outSda, hcoll.trans h.fColl,
    fun hw => (hsh.rxb_of_write hb (h.op.trans hw)).trans (h.rxb hw), fun hb' => (hsh.ended hb hb').clock hne.1 hne.2⟩

theorem State.ByteFrame.envStep {s t : State} (h : s.ByteFrame t) (l : Line) : s.ByteFrame (t.envStep l) :=
  ⟨Block.inv_lineUpdate h.inv, h.rst, h.script, by simpa using h.op, by simpa using h.control,
    by simpa using h.dirScl, by simpa using h.outSda, by simpa using h.fColl, by simpa using h.rxb,
    by simpa using h.outScl⟩

/-- A byte command that is run is run with `CONTROL = 0x2A`, and to its end, on every bus without reset, it keeps what
its micro-steps and the environment keep (R63, R120 to R122). -/
theorem exec_byteFrame {i : Instr} {s t : State} (hi : i.opcode = 3#3 ∨ i.opcode = 4#3 ∨ i.opcode = 5#3)
    (h : s.inv = true) (hr : s.ready = true) (hno : s.noReset = true) (he : exec i s = .next t) :
    s.blk.control = Config.controlWord ∧ t = (s.accepted i).run ∧ (s.accepted i).ByteFrame t := by
  rcases exec_next he with ⟨hn, -⟩ | ⟨-, hc, rfl⟩
  · exact absurd (hr.symm.trans hn) (by decide)
  have hctl : s.blk.control = Config.controlWord :=
    hc.resolve_left fun h0 => by rcases hi with hi | hi | hi <;> simp [h0] at hi
  have hrst := (State.ready_iff.mp hr).1
  have hbus : State.BusRun (fun _ _ => true) (s.accepted i) (s.accepted i).trail (s.accepted i).run :=
    State.busRun_trail hrst hno (State.agendaMeets_of_forall (fun _ _ => rfl) _ _)
  have hstart : (s.accepted i).ByteFrame (s.accepted i) :=
    ⟨(State.inv_iff.mp (State.inv_accepted h hr (.inr hctl))).1, hrst, rfl, rfl, rfl, rfl, rfl, rfl, fun _ => rfl,
      nofun⟩
  exact ⟨hctl, rfl, hbus.keeps (P := (s.accepted i).ByteFrame)
    (fun _ _ h => ⟨h.inv, h.rst, h.script, h.op, h.control, h.dirScl, h.outSda, h.fColl, h.rxb, h.outScl⟩)
    (fun _ _ h hu => h.seqStep hi hctl hu) (fun _ l h => h.envStep l) hstart⟩

theorem State.not_busy_of_completed {s : State} (h : s.completed = true) : s.blk.busy = false := by
  simp only [State.completed, Bool.and_eq_true, Bool.not_eq_true'] at h
  exact h.1

/-- Settles O55: the run is one of a byte command to its end, and at both ends the registers rest. -/
theorem frameOfByteCommands : Obligations.FrameOfByteCommands := by
  intro i s t hi h hr hno he
  obtain ⟨hctl, hrun, hend⟩ := exec_byteFrame hi h hr hno he
  obtain ⟨hrst, hbusy⟩ := State.ready_iff.mp hr
  refine ⟨hend.dirScl, hend.outSda, hend.fColl, hend.control, hend.rxb, hend.script, hend.rst.trans hrst.symm,
    hrun ▸ State.run_env (s := s.accepted i), fun hdone => ?_⟩
  have hb := State.not_busy_of_completed hdone
  obtain ⟨hdir, -, -, hsr, hsdo, hx, hu, -⟩ := (restingValuesAtCommandBoundaries s h hbusy).1 hctl
  obtain ⟨hdir', -, -, hsr', hsdo', hx', hu', -⟩ :=
    (restingValuesAtCommandBoundaries t (State.inv_exec h he) hb).1 (hend.control.trans hctl)
  exact ⟨hdir'.trans hdir.symm, hsr'.trans hsr.symm, hsdo'.trans hsdo.symm, hx'.trans hx.symm, hu'.trans hu.symm,
    hend.outScl hb⟩

end Sys2Proof.Machine
end

section
/-! SUPPORT. The edges of the clock line in a byte command (R96, R123). -/

namespace Sys2Proof.Machine

/-- Over the events from `s` to `t` the clock line falls as often as a sample is taken, but for the levels it begins and
ends at. -/
def EdgesBalance (s : State) (es : List Event) (t : State) : Prop :=
  fallingEdges s es + t.sclLine.toNat = (risingSamples s es).length + s.sclLine.toNat

/-- The count does not depend on what is planned (log 2). -/
theorem edgesBalance_agenda {s t : State} {a : List Move} {es : List Event} :
    EdgesBalance { s with agenda := a } es t ↔ EdgesBalance s es t := by
  cases es with
  | nil => exact Iff.rfl
  | cons e es => exact Iff.rfl

/-- Where a rising edge is a sample a step keeps the balance (R97). -/
theorem EdgesBalance.cons {s t : State} {e : Event} {es : List Event} (h : EdgesBalance e.after es t)
    (hx : s.sclLine = false → e.after.sclLine = true → e.after.blk.xfer = true) : EdgesBalance s (e :: es) t := by
  have hstep : (if s.sclLine && !e.after.sclLine then 1 else 0) + e.after.sclLine.toNat =
      (sampleAt s e).length + s.sclLine.toNat := by
    cases hs : s.sclLine <;> cases ha : e.after.sclLine <;> simp_all [sampleAt]
  simp only [EdgesBalance, fallingEdges, risingSamples_cons, List.length_append] at h ⊢
  omega

/-- All along a byte command on a bus that meets ENV1 the clock line rises once for each sample (R46, R97). -/
theorem State.BusRun.edgesBalance {s t : State} {es : List Event} (h : BusRun Move.env1 s es t)
    (hs : s.blk.PulsesOnly s.env) : EdgesBalance s es t := by
  induction h with
  | refl s => rfl
  | planned a _ ih => exact edgesBalance_agenda.mp (ih hs)
  | micro hu _ ih =>
    obtain ⟨-, b, hb, rfl⟩ := State.seqStep_some hu
    exact (ih (hs.seqStep hb)).cons (hs.run.xfer_of_rise hb)
  | @environment s t es l hbusy hp _ ih =>
    refine (ih (hs.envStep hp)).cons fun hlow hhigh => ?_
    have hline : (s.envStep l).sclLine = s.blk.sclLine (s.env.flip l) := Block.lineUpdate_sclLine _ _ _ _
    exact ((Block.lineUpdate_agrees _ _ _ _).xfer).trans (hs.xfer_of_env_rise hbusy hlow (hline.symm.trans hhigh))
  | read _ ih => exact (ih hs).cons fun hlow hhigh => absurd (hlow.symm.trans hhigh) (by decide)

/-- A byte command that completes on a bus that meets ENV1 makes nine falling edges, and one more where it finds the
clock line high (R96, R123). -/
theorem exec_byte_fallingEdges {i : Instr} {s t : State} (hi : i.opcode = 3#3 ∨ i.opcode = 4#3 ∨ i.opcode = 5#3)
    (h : s.inv = true) (hr : s.ready = true) (hno : s.noReset = true)
    (hclk : s.blk.outScl = false ∨ s.env.scl = true) (henv1 : (s.accepted i).env1 = true)
    (he : exec i s = .next t) (hdone : t.completed = true) :
    fallingEdges (s.accepted i) (s.accepted i).trail = 9 + s.blk.outScl.toNat := by
  obtain ⟨hctl, -, hframe⟩ := exec_byteFrame hi h hr hno he
  obtain ⟨hstart, hbus, -, -, xs, ack, hzs, hend⟩ := exec_byte_samples hi h hr hctl hno henv1 he hdone
  have hpulses : (s.accepted i).blk.PulsesOnly (s.accepted i).env :=
    ⟨hstart.run, fun _ ho => hclk.resolve_left (by simpa using ho)⟩
  have hbalance := hbus.edgesBalance hpulses
  have hfirst : (s.accepted i).sclLine = s.blk.outScl := by
    refine (hstart.run.sclLine _).trans ?_
    rcases hclk with hclk | hclk <;> simp [hclk]
  have hlast : t.sclLine = false := by
    have hdir : t.blk.dirScl = true := hframe.dirScl.trans hstart.run.shaped.dirScl
    simp [State.sclLine, Block.sclLine_eq_outScl hdir, hframe.outScl (State.not_busy_of_completed hdone)]
  rw [EdgesBalance, hlast, hfirst, hzs, List.length_append, hend.length] at hbalance
  exact hbalance

/-- Settles O47: the edges are those of the nine samples, and a condition would be a framing command's. -/
theorem byteCommandsKeepTheWireForm : Obligations.ByteCommandsKeepTheWireForm := by
  intro i s t hi h hr hno henv1 henv2 he hdone
  have hedges := fun hclk => exec_byte_fallingEdges hi h hr hno hclk henv1 he hdone
  refine ⟨fun ho => (hedges (.inl ho)).trans (by rw [ho]; rfl),
    fun ho hscl => (hedges (.inr hscl)).trans (by rw [ho]; rfl), ?_⟩
  have hown := conditionsAreTheFramingCommandsOwn i s h hr (.inr (exec_byteFrame hi h hr hno he).1) hno henv2
  refine List.eq_nil_iff_forall_not_mem.mpr fun e hmem => ?_
  rcases hi with hi | hi | hi <;> simpa [hi] using hown e hmem

end Sys2Proof.Machine
end

section
/-! SUPPORT. The two transfers of a byte command on a quiet bus, with the clock held low before the first (R93, R95,
R120 to R122). -/

namespace Sys2Proof.Machine

/-- A block in a command, configured, that holds the clock low (R11, R22). -/
structure Block.HoldsClock (b : Block) : Prop where
  busy : b.busy = true
  control : b.control = Config.controlWord
  dirScl : b.dirScl = true
  outScl : b.outScl = false

/-- The byte that `n` pulses leave in `SR`: the first bits of the byte loaded, as the data line showed them, shifted in
(R97). -/
def Block.captured (e : Env) (n : Nat) (b : Block) : Byte :=
  shiftAll b.sr (((bitsOf b.sr).take n).map (b.dataLevel e))

/-- The bits of the idle-high pattern (R48). -/
theorem bitsOf_idleHigh : bitsOf Config.idleHigh = List.replicate 8 true := by decide

/-- A line that is an input, or that the latch lets go, has the level the environment gives it (R42, R43). -/
theorem Block.dataLevel_of_released {e : Env} {b : Block} (hd : b.dirSda = false ∨ b.outSda = true) :
    b.dataLevel e true = e.sda := by
  rcases hd with hd | hd <;> simp [Block.dataLevel, hd]

/-- With the idle-high pattern in `SR` and the data line released each bit captured is the level of the line (R97). -/
theorem Block.captured_of_released {e : Env} {b : Block} (hd : b.dirSda = false ∨ b.outSda = true)
    (hs : b.sr = Config.idleHigh) (n : Nat) :
    b.captured e n = shiftAll Config.idleHigh ((List.replicate 8 e.sda).take n) := by
  simp [Block.captured, hs, bitsOf_idleHigh, Block.dataLevel_of_released hd]

/-- The byte of a READ: the level of the line, eight times (R97, R121, R122). -/
theorem Block.captured_byte {e : Env} {b : Block} (hd : b.dirSda = false) (hs : b.sr = Config.idleHigh) :
    b.captured e 8 = if e.sda then 0xFF#8 else 0x00#8 := by
  rw [Block.captured_of_released (.inl hd) hs]
  cases e.sda <;> rfl

/-- The ninth bit where the block sends no 0: the level of the line, behind seven ones (R97, R120, R122). -/
theorem Block.captured_bit {e : Env} {b : Block} (hd : b.dirSda = false ∨ b.outSda = true)
    (hs : b.sr = Config.idleHigh) : b.captured e 1 = if e.sda then 0xFF#8 else 0xFE#8 := by
  rw [Block.captured_of_released hd hs]
  cases e.sda <;> rfl

/-- The ACK of READ_ACK: the 0 the block sends is the 0 it captures (R97, R121). -/
theorem Block.captured_ack {e : Env} {b : Block} (hd : b.dirSda = true) (hs : b.sr = Config.allZero) :
    b.captured e 1 = 0x00#8 := by
  have hbit : (bitsOf Config.allZero).take 1 = [false] := by decide
  have hlevel : b.dataLevel e false = false := by simp [Block.dataLevel, hd]
  rw [Block.captured, hs, hbit, List.map_singleton, hlevel]
  rfl

/-- The block after a called TRANSFER of `n` bits with the STATUS word `w`, back at the label of `ret` (R93, R97). -/
def Block.transferred (e : Env) (w : Byte) (ret : RetLabel) (n : Nat) (b : Block) : Block :=
  { b with
    sr := Config.idleHigh, sdo := true, dirSda := true, cnt := 0#4
    fStart := false, fOvf := true, fStop := false, xfer := false, tret := ret, tw := w
    cap := b.captured e n, upc := ret.toLabel }

/-- The block of a byte command before a CALL: the data line's direction, and the byte in `SR`, which the latch follows
(R15, R120 to R122). -/
def Block.prepared (l : Label) (dir : Level) (rxb v : Byte) (b : Block) : Block :=
  { b with dirSda := dir, sr := v, sdo := v.getLsbD 7, rxb := rxb, upc := l }

section
variable {e : Env} {b : Block} {ret ret' : RetLabel} {l l' l'' : Label} {dir : Level} {w rxb v : Byte} {n : Nat}
  {r : Result}

/-- A CALL and the TRANSFER it calls, 8 pulses for the word of a byte and 1 for that of a bit (R67, R93, R96). -/
theorem Block.HoldsClock.performs_call (h : b.HoldsClock) (he : e.scl = true)
    (hm : microcode b.upc = some ⟨.call w ret, l⟩)
    (hw : (w = Config.statusByteWord ∧ n = 8) ∨ (w = Config.statusBitWord ∧ n = 1)) :
    b.Performs e (b.upc :: transferLabels n) (b.transferred e w ret n) := by
  obtain ⟨k, rfl, hk, hclear, hcnt⟩ : ∃ k, n = k + 1 ∧ k < 8 ∧
      (w.getLsbD 7 = true ∧ w.getLsbD 6 = true ∧ w.getLsbD 5 = true) ∧
      w.extractLsb' 0 4 = BitVec.ofNat 4 (14 - 2 * k) := by
    rcases hw with ⟨rfl, rfl⟩ | ⟨rfl, rfl⟩
    · exact ⟨7, rfl, by decide, by decide, by decide⟩
    · exact ⟨0, rfl, by decide, by decide, by decide⟩
  have hcall := Block.seqStep_of_low (e := e) h.busy hm rfl nofun h.control h.dirScl h.outScl
  exact .step hcall (Block.performs_transfer (b := { b.call w ret with sdo := b.sr.getLsbD 7 }) h.busy rfl h.control
    h.dirScl h.outScl he hk hclear hcnt)

theorem Block.seqStep_of_fin (hb : b.busy = true) (hm : microcode b.upc = some ⟨.fin r, l⟩) :
    b.seqStep e = some (b.fin r) := by
  simp [Block.seqStep, hb, hm, MicroOp.perform]

/-- The common part of the byte commands: the byte is transferred, a micro-step prepares the ninth bit, which is
transferred in its turn, and FIN answers (R120 to R122). -/
theorem Block.HoldsClock.performs_byte (h : b.HoldsClock) (he : e.scl = true)
    (hbyte : microcode b.upc = some ⟨.call Config.statusByteWord ret, l⟩)
    (hmiddle : (b.transferred e Config.statusByteWord ret 8).seqStep e =
      some ((b.transferred e Config.statusByteWord ret 8).prepared l' dir rxb v))
    (hbit : microcode l' = some ⟨.call Config.statusBitWord ret', l⟩)
    (hfin : microcode ret'.toLabel = some ⟨.fin r, l''⟩) :
    ∃ ls, ls.length = 68 ∧ b.Performs e ls (Block.fin r (Block.transferred e Config.statusBitWord ret' 1
      ((b.transferred e Config.statusByteWord ret 8).prepared l' dir rxb v))) := by
  have hfirst := h.performs_call he hbyte (.inl ⟨rfl, rfl⟩)
  have hsecond := Block.HoldsClock.performs_call
    (b := (b.transferred e Config.statusByteWord ret 8).prepared l' dir rxb v)
    ⟨h.busy, h.control, h.dirScl, h.outScl⟩ he hbit (.inr ⟨rfl, rfl⟩)
  have hlast := Block.seqStep_of_fin (e := e) (b := Block.transferred e Config.statusBitWord ret' 1
    ((b.transferred e Config.statusByteWord ret 8).prepared l' dir rxb v)) h.busy hfin
  exact ⟨_, by simp [length_transferLabels], hfirst.trans (.step hmiddle (hsecond.trans (.step hlast (.refl _))))⟩

/-! ## The three commands -/

/-- Before the first CALL of a WRITE the clock is held low, with or without a START, and the byte is in `SR` (R120,
R158). -/
def Block.writeLoaded (b : Block) : Block :=
  { b.prepared (.write .w2) b.dirSda b.rxb b.arg with outScl := false }

theorem Block.performs_writeLoaded (e : Env) (hb : b.busy = true) (hc : b.control = Config.controlWord)
    (hd : b.dirScl = true) (hu : b.upc = .write .w0) : b.Performs e [b.upc, .write .w1] b.writeLoaded := by
  have hw0 := Block.seqStep_of_low (e := e) (m := writeProgram .w0) hb (by rw [hu]; rfl) rfl nofun hc hd rfl
  have hw1 := Block.seqStep_of_low (e := e)
    (b := { b.prepared (.write .w1) b.dirSda b.rxb b.sr with outScl := false }) (m := writeProgram .w1) hb rfl rfl nofun
    hc hd rfl
  exact .step hw0 (.step hw1 (.refl _))

/-- The block a WRITE leaves on a quiet bus: its byte sent, the acknowledge bit captured with the data line released
(R120). -/
def Block.writeDone (e : Env) (b : Block) : Block :=
  let c := b.writeLoaded.transferred e Config.statusByteWord .w3 8
  ((c.prepared (.write .w4) false c.rxb Config.idleHigh).transferred e Config.statusBitWord .wFin 1).fin .acknowledge

theorem Block.performs_write (hb : b.busy = true) (hc : b.control = Config.controlWord) (hd : b.dirScl = true)
    (hu : b.upc = .write .w0) (he : e.scl = true) : ∃ ls, ls.length = 70 ∧ b.Performs e ls (b.writeDone e) := by
  have h : b.writeLoaded.HoldsClock := ⟨hb, hc, hd, rfl⟩
  obtain ⟨ls, hlen, hbyte⟩ := h.performs_byte (dir := false) (v := Config.idleHigh) he rfl
    (Block.seqStep_of_low (m := writeProgram .w3) hb rfl rfl nofun hc hd rfl) rfl rfl
  exact ⟨_, congrArg (· + 2) hlen, (Block.performs_writeLoaded e hb hc hd hu).trans hbyte⟩

/-- Before the first CALL of a READ the data line is an input (R121, R122). -/
def Block.readReleased (l : Label) (b : Block) : Block := b.prepared l false b.rxb b.sr

/-- The block a READ leaves on a quiet bus: the byte captured with the data line released, and the first bit of `v` sent
in the ninth pulse (R121, R122). -/
def Block.readDone (e : Env) (l l' : Label) (ret ret' : RetLabel) (v : Byte) (b : Block) : Block :=
  let c := (b.readReleased l).transferred e Config.statusByteWord ret 8
  ((c.prepared l' true c.cap v).transferred e Config.statusBitWord ret' 1).fin .received

/-- READ_ACK and READ_NACK differ in their labels and in the answer (R121, R122). -/
theorem Block.HoldsClock.performs_read (h : b.HoldsClock) (he : e.scl = true)
    (hfirst : microcode b.upc = some ⟨.setDirSda false, l⟩)
    (hbyte : microcode l = some ⟨.call Config.statusByteWord ret, .transfer .t0⟩)
    (hanswer : microcode ret.toLabel = some ⟨.saveAndLoad v, l'⟩)
    (hbit : microcode l' = some ⟨.call Config.statusBitWord ret', .transfer .t0⟩)
    (hfin : microcode ret'.toLabel = some ⟨.fin .received, .idle⟩) :
    ∃ ls, ls.length = 69 ∧ b.Performs e ls (b.readDone e l l' ret ret' v) := by
  have h' : (b.readReleased l).HoldsClock := ⟨h.busy, h.control, h.dirScl, h.outScl⟩
  obtain ⟨ls, hlen, hrest⟩ := h'.performs_byte (dir := true) (v := v) he hbyte
    (Block.seqStep_of_low (b := (b.readReleased l).transferred e Config.statusByteWord ret 8) h.busy hanswer rfl nofun
      h.control h.dirScl h.outScl) hbit hfin
  have hstep := Block.seqStep_of_low (e := e) h.busy hfirst rfl nofun h.control h.dirScl h.outScl
  exact ⟨_, congrArg (· + 1) hlen, .step hstep hrest⟩

end

end Sys2Proof.Machine
end

section
/-! SUPPORT. The byte commands up to their first pulse, with the clock line held low by the environment (R90, R131). -/

namespace Sys2Proof.Machine

section
variable {e : Env} {b : Block} {m : MicroStep} {ret : RetLabel} {l : Label}

/-- With the clock line held low by the environment a micro-step leaves its writes and the latch (R84). -/
theorem Block.seqStep_of_stuck (he : e.scl = false) (hb : b.busy = true) (hm : microcode b.upc = some m)
    (hl : m.op.updatesLines = true) (hw : m.op ≠ .waitScl) (hc : (m.writes b).control = Config.controlWord) :
    b.seqStep e = some { m.writes b with sdo := (m.writes b).sr.getLsbD 7 } := by
  rw [Block.seqStep_of_writes hb hm hl fun h => absurd h hw, Block.lineUpdate_of_low (Block.twm_of_control hc)]
  simp [Block.sclLine, he]

/-- A transfer of a byte under way, its flags cleared (R88, R93, R95). -/
def Block.calledFor (ret : RetLabel) (b : Block) : Block :=
  { b with fStart := false, fStop := false, xfer := true, tret := ret, tw := Config.statusByteWord }

/-- The block at T3 in the first pulse of a byte, the clock line not having followed the strobe (R89, R131). -/
def Block.atFirstPulse (ret : RetLabel) (b : Block) : Block :=
  (b.calledFor ret).inPulse .t3 b.sr (b.sr.getLsbD 7) 1#4

/-- From the CALL of a byte to T3: the counter preset and the flags cleared at T0, one edge at T2 (R88, R89). -/
theorem Block.performs_atFirstPulse (he : e.scl = false) (hb : b.busy = true) (hc : b.control = Config.controlWord)
    (hm : microcode b.upc = some ⟨.call Config.statusByteWord ret, l⟩) :
    b.Performs e [b.upc, .transfer .t0, .transfer .t1, .transfer .t2] (b.atFirstPulse ret) := by
  have hstuck (b' : Block) (m : MicroStep) := Block.seqStep_of_stuck (b := b') (m := m) he
  have ht0 : Block.seqStep e { b.call Config.statusByteWord ret with sdo := b.sr.getLsbD 7 } =
      some ((b.calledFor ret).betweenPulses .t1 b.sr 0#4 false) := by
    refine (hstuck { b.call Config.statusByteWord ret with sdo := b.sr.getLsbD 7 } (transferProgram .t0) hb rfl rfl
      nofun hc).trans ?_
    simp [Block.betweenPulses, Block.calledFor, transferProgram, Block.beginTransfer, Block.writeStatus, Block.goto,
      Block.call, Config.statusByteWord]
  have ht1 : ((b.calledFor ret).betweenPulses .t1 b.sr 0#4 false).seqStep e =
      some ((b.calledFor ret).betweenPulses .t2 b.sr 0#4 false) :=
    hstuck _ (transferProgram .t1) hb rfl rfl nofun hc
  have ht2 : ((b.calledFor ret).betweenPulses .t2 b.sr 0#4 false).seqStep e = some (b.atFirstPulse ret) := by
    refine (hstuck ((b.calledFor ret).betweenPulses .t2 b.sr 0#4 false) (transferProgram .t2) hb rfl rfl
      nofun hc).trans ?_
    simp [Block.atFirstPulse, Block.inPulse, Block.betweenPulses, transferProgram, Block.strobeTc, Block.countEdge,
      Block.goto]
  exact .step (hstuck b _ hb hm rfl nofun hc) (.step ht0 (.step ht1 (.step ht2 (.refl _))))

theorem Block.atFirstPulse_blocked (he : e.scl = false) (hb : b.busy = true) :
    (b.atFirstPulse ret).seqStep e = none := by
  simp [Block.seqStep, Block.atFirstPulse, Block.calledFor, Block.inPulse, hb, microcode, transferProgram,
    MicroOp.perform, Block.sclLine, he]

end

end Sys2Proof.Machine
end

section
/-! SUPPORT. A command from a command boundary by the micro-steps it performs on a quiet bus (R62, R166). -/

namespace Sys2Proof.Machine

/-- Micro-steps in a row that end where none is enabled are all that the sequencer alone makes (R80). -/
theorem Block.Performs.runsThrough {e : Env} {b c : Block} {ls : List Label} (h : b.Performs e ls c)
    (hc : c.seqStep e = none) : ∃ cs, b.RunsThrough e cs ∧ cs.getLastD b = c ∧ cs.length = ls.length := by
  induction h with
  | refl b => exact ⟨[], hc, rfl, rfl⟩
  | @step b b' c ls hs _ ih =>
    obtain ⟨cs, hrun, hlast, hlen⟩ := ih hc
    exact ⟨b' :: cs, ⟨hs, hrun⟩, by rw [List.getLastD_cons, hlast], congrArg (· + 1) hlen⟩

section
variable {s : State} {i : Instr} {ls : List Label} {c : Block} (h : s.Boundary) (hq : s.quiet = true)
  (hrun : (s.accepted i).blk.Performs s.env ls c) (hn : ls.length ≤ maxMicroSteps) (hc : c.seqStep s.env = none)
include h hq hrun hn hc

theorem State.Boundary.exec_of_performs : exec i s = .next { s with blk := c } := by
  obtain ⟨cs, hcs, hlast, hlen⟩ := hrun.runsThrough hc
  rw [← hlast]
  exact (exec_of_runsThrough h.ready hq (.inr h.control) hcs (hlen ▸ hn)).1

/-- A command that does not finish hangs at the label it has come to (R131). -/
theorem State.Boundary.hangs_of_performs (hb : c.busy = true) :
    ∃ t, exec i s = .next t ∧ t = { s with blk := c } ∧ step t = .fault (.hang c.upc) :=
  ⟨_, h.exec_of_performs hq hrun hn hc, rfl, step_of_hang (s := { s with blk := c }) h.rst hq hb hc⟩

end

end Sys2Proof.Machine
end

section
/-! SUPPORT. WRITE, READ_ACK and READ_NACK from a command boundary, on a quiet bus (R120 to R122, R158). -/

namespace Sys2Proof.Machine

/-- Bit 0 of what the ninth pulse leaves in `CAP` is the level sampled (R97, R120). -/
theorem getElem_zero_of_bit (level : Level) : (if level then 0xFF#8 else 0xFE#8)[0] = level := by
  revert level
  decide

/-- Settles O31: W0 pulls the clock low, whatever START left, and the ninth bit is the level of the line. -/
theorem writeCompletes : Obligations.WriteCompletes := by
  intro d s hat hq he
  have h := State.boundary_iff.mp hat
  obtain ⟨ls, hlen, hrun⟩ := Block.performs_write (b := (s.accepted (.write d)).blk) rfl h.control h.dirScl rfl he
  rw [h.exec_of_performs hq hrun (by simp [hlen, maxMicroSteps]) rfl]
  simp [Block.writeDone, Block.writeLoaded, Block.fin, Block.transferred, Block.prepared, Block.captured_bit,
    Block.resultOf, Block.acknowledged, getElem_zero_of_bit, Instr.opcode, Instr.operand, Config.statusBitWord,
    h.busy, h.dirSda, h.sr, h.sdo, h.xfer, h.upc]

/-- A READ on a quiet bus with the clock held low, by its labels and its answer, of which it captures `x` (R121,
R122). -/
theorem State.Boundary.exec_read {s : State} {i : Instr} {l l' : Label} {ret ret' : RetLabel} {v x : Byte}
    (h : s.Boundary) (hq : s.quiet = true) (he : s.env.scl = true) (ho : s.blk.outScl = false)
    (hfirst : microcode (firstLabel i) = some ⟨.setDirSda false, l⟩)
    (hbyte : microcode l = some ⟨.call Config.statusByteWord ret, .transfer .t0⟩)
    (hanswer : microcode ret.toLabel = some ⟨.saveAndLoad v, l'⟩)
    (hbit : microcode l' = some ⟨.call Config.statusBitWord ret', .transfer .t0⟩)
    (hfin : microcode ret'.toLabel = some ⟨.fin .received, .idle⟩)
    (hx : ∀ b : Block, b.dirSda = true → b.outSda = true → b.sr = v → b.captured s.env 1 = x) :
    exec i s = .next { s with blk := { s.blk with
      cnt := 0#4, fStart := false, fOvf := true, fStop := false
      op := i.opcode, arg := i.operand, tret := ret', tw := 0xFE#8, cap := x
      rxb := if s.env.sda then 0xFF#8 else 0x00#8
      rspValid := true, rspAck := false, rspData := if s.env.sda then 0xFF#8 else 0x00#8 } } := by
  have hhold : (s.accepted i).blk.HoldsClock := ⟨rfl, h.control, h.dirScl, ho⟩
  obtain ⟨ls, hlen, hrun⟩ := hhold.performs_read he hfirst hbyte hanswer hbit hfin
  rw [h.exec_of_performs hq hrun (by simp [hlen, maxMicroSteps]) rfl]
  simp [Block.readDone, Block.readReleased, Block.fin, Block.transferred, Block.prepared, Block.captured_byte, hx,
    Block.resultOf, Config.statusBitWord, h.busy, h.dirSda, h.outSda, h.sr, h.sdo, h.xfer, h.upc]

/-- Settles O32: the 0 the block sends in the ninth pulse is the 0 it captures. -/
theorem readAckCompletes : Obligations.ReadAckCompletes := fun _ _ hat hq he ho =>
  (State.boundary_iff.mp hat).exec_read hq he ho rfl rfl rfl rfl rfl fun _ hd _ hs => Block.captured_ack hd hs

/-- Settles O33: in the ninth pulse the block lets the line go, and captures its level. -/
theorem readNackCompletes : Obligations.ReadNackCompletes := fun _ _ hat hq he ho =>
  (State.boundary_iff.mp hat).exec_read hq he ho rfl rfl rfl rfl rfl fun _ _ hout hs =>
    Block.captured_bit (.inr hout) hs

end Sys2Proof.Machine
end

section
/-! SUPPORT. The byte commands from a command boundary, with the clock line held low by a quiet environment (R131,
R157). -/

namespace Sys2Proof.Machine

section
variable {s : State} {i : Instr} {b c : Block} {ls : List Label} {ret : RetLabel} {l : Label}

/-- A byte command that has come to its first pulse hangs there, at T3 (R131). -/
theorem State.Boundary.hangs_at_t3 (h : s.Boundary) (hq : s.quiet = true) (he : s.env.scl = false)
    (hrun : (s.accepted i).blk.Performs s.env ls (b.atFirstPulse ret)) (hn : ls.length ≤ maxMicroSteps)
    (hb : b.busy = true) (hlast : b.atFirstPulse ret = c) :
    ∃ t, exec i s = .next t ∧ t = { s with blk := c } ∧ step t = .fault (.hang (.transfer .t3)) :=
  hlast ▸ h.hangs_of_performs hq hrun hn (Block.atFirstPulse_blocked he hb) hb

/-- A READ hangs with the data line an input, and the clock line held low by the block too if it was released before the
command (R131, R157). -/
theorem State.Boundary.read_hangs (h : s.Boundary) (hq : s.quiet = true) (he : s.env.scl = false)
    (hfirst : microcode (firstLabel i) = some ⟨.setDirSda false, l⟩)
    (hbyte : microcode l = some ⟨.call Config.statusByteWord ret, .transfer .t0⟩) :
    ∃ t, exec i s = .next t ∧
      t = { s with blk := { s.blk with
        dirSda := false, outScl := !s.blk.outScl, cnt := 1#4
        fStart := false, fOvf := false, fStop := false, xfer := true
        op := i.opcode, arg := i.operand, busy := true, upc := .transfer .t3, tret := ret, tw := 0xF0#8
        rspValid := false } } ∧
      step t = .fault (.hang (.transfer .t3)) := by
  have hreleased : (s.accepted i).blk.Performs s.env [firstLabel i] ((s.accepted i).blk.readReleased l) :=
    .step (Block.seqStep_of_stuck he rfl hfirst rfl nofun h.control) (.refl _)
  have hpulse : ((s.accepted i).blk.readReleased l).Performs s.env _
      (((s.accepted i).blk.readReleased l).atFirstPulse ret) := Block.performs_atFirstPulse he rfl h.control hbyte
  refine h.hangs_at_t3 hq he (hreleased.trans hpulse) (by simp [maxMicroSteps]) rfl ?_
  simp [Block.atFirstPulse, Block.calledFor, Block.inPulse, Block.readReleased, Block.prepared, Config.statusByteWord,
    Config.idleHigh, h.sr, h.sdo]

end

/-- Settles O35: no byte command gets further than the first WAIT for the clock line. -/
theorem byteCommandsHangOnAStuckClock : Obligations.ByteCommandsHangOnAStuckClock := by
  intro d s hat hq he
  have h := State.boundary_iff.mp hat
  have hreadAck := h.read_hangs (i := .readAck d) hq he rfl rfl
  have hreadNack := h.read_hangs (i := .readNack d) hq he rfl rfl
  refine ⟨?_, hreadAck, hreadNack⟩
  have hpulse : (s.accepted (.write d)).blk.writeLoaded.Performs s.env _
      ((s.accepted (.write d)).blk.writeLoaded.atFirstPulse .w3) := Block.performs_atFirstPulse he rfl h.control rfl
  have hloaded := Block.performs_writeLoaded s.env (b := (s.accepted (.write d)).blk) rfl h.control h.dirScl rfl
  refine h.hangs_at_t3 hq he (hloaded.trans hpulse) (by simp [maxMicroSteps]) rfl ?_
  simp [Block.atFirstPulse, Block.calledFor, Block.inPulse, Block.writeLoaded, Block.prepared, Config.statusByteWord,
    Instr.opcode, Instr.operand]

end Sys2Proof.Machine
end

section
/-! SUPPORT. The run of a command that no reset ends: the sequencer goes as far as it can, and where it stops short of
FIN it is blocked at a WAIT (R90, R131, R167). -/

namespace Sys2Proof.Machine

/-- A WAIT on a clock line that reads low is all that can block a command in progress (R90, R131). -/
theorem Block.waits_of_seqStep_eq_none {e : Env} {b : Block} (h : b.inv e = true) (hb : b.busy = true)
    (hn : b.seqStep e = none) :
    b.Shaped ∧ b.sclLine e = false ∧
      (b.upc = .start .s1 ∨ b.upc = .stop .p2 ∨ b.upc = .transfer .t3) := by
  have hidle : b.upc ≠ .idle := by simpa [hb] using Block.inv_busy h
  obtain ⟨m, hm⟩ := Option.ne_none_iff_exists'.mp (mt microcode_eq_none.mp hidle)
  have hstep : b.seqStep e = m.op.perform e m.next b := by simp [Block.seqStep, hb, hm]
  obtain ⟨hop, hlow⟩ := MicroOp.perform_eq_none.mp (hstep.symm.trans hn)
  have hu := (microcode_waitScl hm).mp hop
  have hi0 : b.upc ≠ .init .i0 := by rcases hu with hu | hu | hu <;> simp [hu]
  exact ⟨(Block.shaped_of_upc h hidle hi0).1, hlow, hu⟩

/-- While START waits it drives neither line low (R111, R131). -/
theorem Block.Shaped.outputs_at_s1 {b : Block} (h : b.Shaped) (hu : b.upc = .start .s1) :
    b.outScl = true ∧ b.outSda = true := by
  have hs := h.shape
  simp only [Block.shape, hu, Block.settled, Bool.and_eq_true] at hs
  obtain ⟨⟨⟨⟨⟨-, hsda⟩, -⟩, -⟩, hscl⟩, -⟩ := hs
  exact ⟨hscl, hsda⟩

/-- While STOP waits it pulls the data line low (R112, R131). -/
theorem Block.Shaped.outputs_at_p2 {b : Block} (h : b.Shaped) (hu : b.upc = .stop .p2) :
    b.outScl = true ∧ b.outSda = false := by
  have hs := h.shape
  simp only [Block.shape, hu, Bool.and_eq_true, Bool.not_eq_true'] at hs
  obtain ⟨⟨⟨⟨⟨-, hsda⟩, hscl⟩, -⟩, -⟩, -⟩ := hs
  exact ⟨hscl, hsda⟩

/-- Both presets are even (R67, R96). -/
theorem Block.preset_even {b : Block} (h : b.transferSetUp = true) : (b.tw.extractLsb' 0 4).getLsbD 0 = false := by
  simp only [Block.transferSetUp, Bool.and_eq_true, beq_iff_eq] at h
  obtain ⟨⟨-, htw⟩, -⟩ := h
  rw [htw]
  cases b.tret.ofByte <;> rfl

theorem parity_sub_even {c w : Count} (hw : w.getLsbD 0 = false) : (c - w).getLsbD 0 = c.getLsbD 0 := by
  revert c w
  decide

/-- While a transfer waits: one edge of the pulse is counted, `SDO` alone drives the data line, and the clock is let go
but by the first pulse of a READ entered with the clock released (R131, R157). -/
theorem Block.Shaped.registers_at_t3 {b : Block} (h : b.Shaped) (hu : b.upc = .transfer .t3) :
    b.xfer = true ∧ (b.cnt - b.tw.extractLsb' 0 4).getLsbD 0 = true ∧ b.mSda = (!b.dirSda || b.sdo) ∧
      (b.outScl = true ∨ ((b.op = 4#3 ∨ b.op = 5#3) ∧ b.cnt = 1#4)) := by
  have hs := h.shape
  simp only [Block.shape, hu, Block.counting, Bool.and_eq_true, Bool.or_eq_true, beq_iff_eq] at hs
  obtain ⟨⟨⟨hset, hodd, -⟩, -⟩, hclock⟩ := hs
  have hparts := hset
  simp only [Block.transferSetUp, Bool.and_eq_true, beq_iff_eq] at hparts
  obtain ⟨⟨⟨⟨hsda, hop⟩, -⟩, -⟩, -⟩ := hparts
  refine ⟨by simp [h.xfer, hu, Label.shifting], (parity_sub_even (Block.preset_even hset)).trans hodd,
    by simp [Block.mSda, hsda], hclock.imp_right fun ⟨hread, hcnt⟩ => ⟨?_, hcnt⟩⟩
  rw [hop]
  cases hr : b.tret <;> simp_all [RetLabel.ofRead, RetLabel.opcode]

/-- No micro-step but the one that ends the command answers (R65, R92). -/
theorem Block.rspValid_seqStep_of_busy {e : Env} {b b' : Block} (hs : b.seqStep e = some b') (hb : b'.busy = true) :
    b'.rspValid = b.rspValid := by
  obtain ⟨m, hm, ha⟩ := Block.seqStep_agrees hs
  by_contra hne
  have hdone := (MicroStep.writes_writtenFrom hm).response (.inl (ha.rspValid ▸ hne))
  exact absurd ((ha.busy.trans hdone).symm.trans hb) (by decide)

/-- A state of the run of a command on any bus without reset: no more micro-steps are ahead than a command has, and
there is no response before the end. -/
structure State.Underway (t : State) : Prop where
  inv : t.blk.inv t.env = true
  rst : t.rst = false
  ahead : t.blk.ahead.length ≤ maxMicroSteps
  unanswered : t.blk.busy = true → t.blk.rspValid = false

theorem State.Underway.seqStep {t u : State} (h : t.Underway) (hu : t.seqStep = some u) : u.Underway := by
  obtain ⟨-, b, hb, rfl⟩ := State.seqStep_some hu
  have hlen := h.ahead
  rw [Block.ahead_seqStep h.inv hb, List.length_cons] at hlen
  exact ⟨Block.inv_seqStep h.inv hb, h.rst, Nat.le_of_succ_le hlen, fun hbusy =>
    (Block.rspValid_seqStep_of_busy hb hbusy).trans (h.unanswered (Block.seqStep_some hb).1)⟩

theorem State.Underway.envStep {t : State} (h : t.Underway) (l : Line) : (t.envStep l).Underway :=
  ⟨Block.inv_lineUpdate h.inv, h.rst,
    by rw [State.envStep_parts l t |>.2.2.2.2, (Block.lineUpdate_agrees _ _ _ _).ahead]; exact h.ahead,
    by simpa using h.unanswered⟩

theorem State.Underway.run {p : State → Move → Bool} {s t : State} {es : List Event} (hs : s.Underway)
    (h : BusRun p s es t) : t.Underway :=
  h.keeps (fun _ _ hu => ⟨hu.inv, hu.rst, hu.ahead, hu.unanswered⟩) (fun _ _ hu hv => hu.seqStep hv)
    (fun _ l hu => hu.envStep l) hs

theorem State.underway_accepted {i : Instr} {s : State} (h : s.inv = true) (hr : s.ready = true)
    (hc : i.opcode = 0#3 ∨ s.blk.control = Config.controlWord) : (s.accepted i).Underway := by
  have hahead : (s.accepted i).blk.ahead = labelsFrom (firstLabel i) (firstLabel i).program := by cases i <;> rfl
  have hmax : microStepCount i ≤ maxMicroSteps := by cases i <;> simp [microStepCount, maxMicroSteps]
  exact ⟨(State.inv_iff.mp (State.inv_accepted h hr hc)).1, (State.ready_iff.mp hr).1,
    by rwa [hahead, length_program], fun _ => rfl⟩

/-- With as many micro-steps as are ahead the sequencer alone goes on until none is enabled (R80, R167). -/
theorem State.seqStep_runQuiet_eq_none {t : State} (h : t.blk.inv t.env = true) (n : Nat)
    (hn : t.blk.ahead.length ≤ n) : (t.runQuiet n).seqStep = none := by
  induction n generalizing t with
  | zero =>
    cases hq : t.seqStep with
    | none => exact hq
    | some u =>
      obtain ⟨-, b, hb, -⟩ := State.seqStep_some hq
      simp [Block.ahead_seqStep h hb] at hn
  | succ n ih =>
    cases hq : t.seqStep with
    | none => simp [State.runQuiet, hq]
    | some u =>
      obtain ⟨-, b, hb, rfl⟩ := State.seqStep_some hq
      simp only [State.runQuiet, hq]
      rw [Block.ahead_seqStep h hb, List.length_cons] at hn
      exact ih (Block.inv_seqStep h hb) (Nat.le_of_succ_le_succ hn)

/-- A run that does not end its command uses every planned move up (log 2). -/
theorem State.agenda_runAgenda {ms : List Move} {s : State} (ha : s.agenda = ms)
    (hb : (State.runAgenda ms s).blk.busy = true) : (State.runAgenda ms s).agenda = [] := by
  induction ms generalizing s with
  | nil => exact (State.runQuiet_frame _ s).2.2.2.trans ha
  | cons m ms ih =>
    cases hs : s.blk.busy with
    | false =>
      rw [State.runAgenda_of_not_busy hs] at hb
      exact absurd (hs.symm.trans hb) (by decide)
    | true =>
      rw [State.runAgenda_cons_of_busy hs] at hb ⊢
      exact ih (State.move_frame m _).2 hb

/-- A command run without reset ends in a state of its run in which no micro-step is enabled (R167). -/
theorem State.Underway.run_end {s : State} (h : s.Underway) (hno : s.noReset = true) :
    s.run.Underway ∧ s.run.seqStep = none ∧ s.run.blk.op = s.blk.op := by
  obtain ⟨es, -, hrun, hbus⟩ := State.busRun_planned (p := fun _ _ => true) h.rst hno
    (State.agendaMeets_of_forall (fun _ _ => rfl) _ _)
  have hmid := h.run hbus
  have hwhole := hbus.trans (State.busRun_trailQuiet _ maxMicroSteps _)
  rw [hrun]
  exact ⟨h.run hwhole, State.seqStep_runQuiet_eq_none hmid.inv _ hmid.ahead, hwhole.command.1⟩

/-- Settles O42: the run ends where no micro-step is enabled, and a command in progress is there at a WAIT, with the
registers of its label. -/
theorem unfinishedCommandsAreBlockedAtAWait : Obligations.UnfinishedCommandsAreBlockedAtAWait := by
  intro i s t h hr hno he hbusy
  rcases exec_next he with ⟨hn, -⟩ | ⟨-, hc, rfl⟩
  · exact absurd (hr.symm.trans hn) (by decide)
  obtain ⟨hend, hnone, hop⟩ := (State.underway_accepted h hr hc).run_end hno
  have hagenda : (s.accepted i).run.agenda = [] := State.agenda_runAgenda rfl hbusy
  have hblk : (s.accepted i).run.blk.seqStep (s.accepted i).run.env = none := by
    simpa [State.seqStep_of_released hend.rst] using hnone
  obtain ⟨hsh, hlow, hu⟩ := Block.waits_of_seqStep_eq_none hend.inv hbusy hblk
  refine ⟨by simp [State.blocked, hbusy, hend.rst, hnone], hlow, hend.unanswered hbusy, hagenda,
    step_of_hang hend.rst (by simp [State.quiet, hagenda]) hbusy hblk, ?_⟩
  rcases hu with hu | hu | hu
  · exact .inl ⟨hu, hsh.outputs_at_s1 hu⟩
  · exact .inr (.inl ⟨hu, hsh.outputs_at_p2 hu⟩)
  · have hreg := hsh.registers_at_t3 hu
    rw [hop] at hreg
    exact .inr (.inr ⟨hu, hreg⟩)

end Sys2Proof.Machine
end

section
/-! SUPPORT. The micro-steps of a completed command, by its opcode (R62, R132, R167). -/

namespace Sys2Proof.Machine

/-- The labels at which the commands start, in the order of their opcodes (R62). -/
def firstLabels : List Label :=
  [.init .i0, .start .s0, .stop .p0, .write .w0, .readAck .a0, .readNack .n0]

theorem getElem?_firstLabels (i : Instr) : firstLabels[i.opcode.toNat]? = some (firstLabel i) := by
  cases i <;> rfl

/-- The operand plays no part in the dispatch (R62, R64). -/
theorem firstLabel_congr {i j : Instr} (h : i.opcode = j.opcode) : firstLabel i = firstLabel j :=
  Option.some.inj (by rw [← getElem?_firstLabels i, h, getElem?_firstLabels j])

/-- Settles O43: both runs perform the program of the opcode's first label. -/
theorem microStepsDependOnTheCommandAlone : Obligations.MicroStepsDependOnTheCommandAlone := by
  intro i j s t s' t' hij h hr hno he hdone h' hr' hno' he' hdone'
  rw [performed_of_completed h hr hno he hdone, performed_of_completed h' hr' hno' he' hdone', firstLabel_congr hij]

end Sys2Proof.Machine
end

section
/-! SUPPORT. While reset is asserted nothing but its release changes the machine (R150). -/

namespace Sys2Proof.Machine

theorem State.not_ready_of_rst {s : State} (hr : s.rst = true) : s.ready = false := by
  simp [State.ready, hr]

/-- Under reset the sequencer and the environment have no step, and the host's moves change nothing (R150). -/
theorem State.move_of_rst {s : State} {m : Move} (hr : s.rst = true) (ha : m ≠ .assertReset)
    (hl : m ≠ .releaseReset) : s.move m = s := by
  rcases State.move_cases m s with h | h | ⟨_, -, hlow, -⟩ | ⟨h, -⟩ | ⟨h, -⟩
  · exact h
  · exact absurd (hr.symm.trans (State.seqStep_some h).1) (by decide)
  · exact absurd (hr.symm.trans hlow) (by decide)
  · exact absurd h ha
  · exact absurd h hl

theorem State.advance_of_rst {s : State} (hr : s.rst = true) (ha : s.agenda = []) : s.advance = .next s := by
  simp [State.advance, ha, hr]

/-- Settles O57: the machine is not ready, so each step is that of the agenda. -/
theorem assertedResetHoldsTheMachine : Obligations.AssertedResetHoldsTheMachine := by
  intro s hr
  have hn : s.ready = false := State.not_ready_of_rst hr
  have hf : s.fetch = none := State.fetch_of_not_ready hn
  refine ⟨fun i => exec_of_not_ready i hn, hf, fun ha => ?_, fun m ms ha hassert hrelease => ?_, fun ms ha => ?_⟩
  · rw [step_of_fetch_none hf, State.advance_of_rst hr ha]
  · rw [step_of_fetch_none hf, State.advance_of_agenda_cons ha,
      State.move_of_rst (s := { s with agenda := ms }) hr hassert hrelease]
  · rw [step_of_fetch_none hf, State.advance_of_agenda_cons ha]
    rfl

end Sys2Proof.Machine
end

section
/-! SUPPORT. The run of a session of the grammar on an idle bus, and the state it ends in (R152, R153, R166). -/

namespace Sys2Proof.Machine

/-- A machine after a command of a session on an idle bus: the command is completed, and outside a transaction the
clock is released (R32, R153). -/
structure State.AfterCommand (inside : Bool) (s : State) : Prop where
  session : s.InSession inside
  completed : s.completed = true
  released : inside = false → s.blk.outScl = true

variable {inside : Bool} {s t : State} {i : Instr}

theorem State.completed_of_answer {a : Level × Byte} (h : t.answer = [a]) : t.completed = true := by
  by_contra hd
  simp [State.answer, hd] at h

/-- Between two commands of a session the machine is at a command boundary (R32). -/
theorem State.InSession.boundary (h : s.InSession inside) : s.Boundary := by
  obtain ⟨hr, hb⟩ := State.ready_iff.mp h.ready
  obtain ⟨hu, hx, hrest⟩ := Block.inv_of_not_busy (State.inv_iff.mp h.inv).1 hb
  obtain ⟨hsh, -, hset⟩ := hrest.resolve_left fun hz => absurd (hz.1.symm.trans h.control) (by decide)
  simp only [Block.settled, Bool.and_eq_true, beq_iff_eq] at hset
  obtain ⟨⟨⟨hdir, hout⟩, hsr⟩, hsdo⟩ := hset
  exact ⟨hr, hb, h.control, hdir, hout, hsr, hsdo, hsh.dirScl, hx, hu⟩

/-- STOP releases the clock (R112). -/
theorem State.InSession.outScl_of_stop {d : Byte} (h : s.InSession inside) (he : Machine.exec (.stop d) s = .next t) :
    t.blk.outScl = true := by
  have hstop := stopCompletes d s (State.boundary_iff.mpr h.boundary) (by simp [State.quiet, h.agenda]) (by simp [h.env])
  obtain rfl := Host.Outcome.next.inj (he.symm.trans hstop)
  rfl

/-- A command of a transaction completes on an idle bus, a READ inside one (R153, R167). -/
theorem State.InSession.exec_afterCommand (h : s.InSession inside) (hi : i.opcode ≠ 0#3)
    (hread : i.opcode = 4#3 ∨ i.opcode = 5#3 → inside = true) :
    ∃ t, Machine.exec i s = .next t ∧ t.AfterCommand (i.opcode != 2#3) ∧ t.script = s.script := by
  obtain ⟨t, he, hanswer, ht, hscript⟩ := h.exec hi hread
  refine ⟨t, he, ⟨ht, State.completed_of_answer hanswer, fun hout => ?_⟩, hscript⟩
  cases i with
  | stop d => exact h.outScl_of_stop he
  | _ => simp [Instr.opcode] at hout

/-- INIT completes with the clock released (R110). -/
theorem exec_init_afterCommand (d : Byte) (hi : s.inv = true) (hr : s.ready = true) (ha : s.agenda = [])
    (henv : s.env = { sda := true, scl := true }) :
    ∃ t, exec (.init d) s = .next t ∧ t.AfterCommand false ∧ t.script = s.script := by
  obtain ⟨t, he, hanswer, ht, hscript⟩ := exec_init_inSession d hi hr ha henv
  refine ⟨t, he, ⟨ht, State.completed_of_answer hanswer, fun _ => ?_⟩, hscript⟩
  obtain rfl := Host.Outcome.next.inj (he.symm.trans (exec_init_of_quiet d hr (by simp [State.quiet, ha])))
  rfl

theorem core_run_succ (n : Nat) (h : step s = .next t) :
    Host.Core.run Sys2Proof.core (n + 1) s = Host.Core.run Sys2Proof.core n t := by
  have hcore : Sys2Proof.core.step s = step s := rfl
  simp only [Host.Core.run, hcore, h]

/-- With no move planned a run accepts the next command of the script first (R166). -/
theorem core_run_of_exec {ws : List CmdWord} (n : Nat) (hr : s.ready = true) (ha : s.agenda = [])
    (hs : s.script = encode i :: ws) (he : exec i { s with script := ws } = .next t) :
    Host.Core.run Sys2Proof.core (n + 1) s = Host.Core.run Sys2Proof.core n t := by
  refine core_run_succ n ?_
  rw [stepRunsTheDecodedCommand s _ ws [] i hr hs (.inr ⟨ha, rfl⟩) (decode_encode i), ← ha, he]

/-- The commands of whole transactions complete one after the other, and leave the machine outside a transaction. -/
theorem core_run_of_transactions {is : List Instr} (hwf : transactionsWf inside is = true)
    (h : s.AfterCommand inside) (hs : s.script = is.map encode) :
    ∃ t : State, Host.Core.run Sys2Proof.core is.length s = .next t ∧ t.AfterCommand false ∧ t.script = [] := by
  induction is generalizing inside s with
  | nil =>
    obtain rfl : inside = false := by simpa [transactionsWf] using hwf
    exact ⟨s, rfl, h, hs⟩
  | cons i is ih =>
    obtain ⟨hi, hread, hrest⟩ := transactionsWf_cons hwf
    obtain ⟨t, he, ht, hscript⟩ := (h.session.withScript (is.map encode)).exec_afterCommand hi hread
    rw [List.length_cons, core_run_of_exec _ h.session.ready h.session.agenda hs he]
    exact ih hrest ht hscript

/-- A session is INIT and then transactions (R153). -/
theorem sessionWf_cases {is : List Instr} (h : sessionWf is = true) :
    ∃ d js, is = .init d :: js ∧ transactionsWf false js = true := by
  cases is with
  | nil => simp [sessionWf] at h
  | cons i js =>
    cases i with
    | init d => exact ⟨d, js, rfl, h⟩
    | _ => simp [sessionWf] at h

/-- INIT opens the session, and the transactions follow. -/
theorem core_run_of_session {is : List Instr} (hwf : sessionWf is = true) (hi : s.inv = true) (hr : s.ready = true)
    (ha : s.agenda = []) (henv : s.env = { sda := true, scl := true }) (hs : s.script = is.map encode) :
    ∃ t : State, Host.Core.run Sys2Proof.core is.length s = .next t ∧ t.AfterCommand false ∧ t.script = [] := by
  obtain ⟨d, js, rfl, hrest⟩ := sessionWf_cases hwf
  obtain ⟨t, he, ht, hscript⟩ := exec_init_afterCommand (s := { s with script := js.map encode }) d hi hr ha henv
  rw [List.length_cons, core_run_of_exec _ hr ha hs he]
  exact core_run_of_transactions hrest ht hscript

/-- With no word left to present, a machine after a completed command is final (R166). -/
theorem State.AfterCommand.final (h : s.AfterCommand inside) (hs : s.script = []) : s.final false = true := by
  obtain ⟨-, hv⟩ : s.blk.busy = false ∧ s.blk.rspValid = true := by simpa [State.completed] using h.completed
  simp [State.final, hs, h.session.boundary.busy, h.session.boundary.upc, hv]

/-- Settles O50: one step per command, each from where the one before completed. -/
theorem sessionsOfTheGrammarComplete : Obligations.SessionsOfTheGrammarComplete := by
  intro is hwf
  obtain ⟨t, hrun, ht, hscript⟩ := core_run_of_session (s := { State.reset with script := is.map encode }) hwf
    invariantHoldsAtReset rfl rfl rfl rfl
  have hclk : t.blk.outScl = true := ht.released rfl
  have hlines : t.lines = (t.blk.outScl, true) := ht.session.boundary.lines ht.session.env
  exact ⟨t, hrun, ht.final hscript, hclk, ht.session.boundary.outSda, hlines.trans (by rw [hclk])⟩

end Sys2Proof.Machine
end
